-- ==== Sys2Proof/Word.lean ====
section
/-! DEFINITION. Word.lean: the bytes of the two links, pin patterns, the numbering of lanes and pairs, and tables of fixed size. -/

namespace Sys2Proof

/-- One byte of a frame of either link (spec/01 section 1.7). -/
abbrev Byte := BitVec 8

/-- A pin pattern: bit k-1 stands for pin k (spec/01, Pin pattern). -/
abbrev Pins := BitVec 10

/-- A lane. The manual numbers lanes 1 to 32; lane number n is the element n-1 here (spec/00, Numbering). -/
abbrev Lane := Fin 32

/-- A pair. Pair number p is the element p-1 here; it holds lanes 2p-1 and 2p (spec/00, Numbering). -/
abbrev Pair := Fin 16

/-- A team slot. Slot number n is the element n-1 here (spec/00, Numbering). -/
abbrev Slot := Fin 32

/-- A tariff index, 0 to 15 (spec/00, Numbering). -/
abbrev TariffIndex := Fin 16

/-- A table of `n` places. -/
abbrev Table (n : Nat) (α : Type) := Vector α n

/-- The entry of a table at a place. -/
def Table.at {n : Nat} {α : Type} (t : Table n α) (i : Fin n) : α := Vector.get t i

/-- The table with one place replaced. -/
def Table.put {n : Nat} {α : Type} (t : Table n α) (i : Fin n) (x : α) : Table n α :=
  Vector.set t i.val x i.isLt

/-- The table with the same entry at every place. -/
def Table.fill (n : Nat) {α : Type} (x : α) : Table n α := Vector.replicate n x

@[simp] theorem Table.at_put_same {n : Nat} {α : Type} (t : Table n α) (i : Fin n) (x : α) :
    (t.put i x).at i = x := by
  simp [Table.at, Table.put, Vector.get_eq_getElem]

theorem Table.at_put {n : Nat} {α : Type} (t : Table n α) (i j : Fin n) (x : α) :
    (t.put i x).at j = if j = i then x else t.at j := by
  simp only [Table.at, Table.put, Vector.get_eq_getElem, Vector.getElem_set, Fin.ext_iff]
  by_cases h : i.val = j.val <;> simp [h, eq_comm]

@[simp] theorem Table.at_put_other {n : Nat} {α : Type} (t : Table n α) (i j : Fin n) (x : α)
    (h : j ≠ i) : (t.put i x).at j = t.at j := by
  simp [Table.at_put, h]

@[simp] theorem Table.at_fill {n : Nat} {α : Type} (x : α) (i : Fin n) :
    (Table.fill n x).at i = x := by
  simp [Table.at, Table.fill, Vector.get_eq_getElem]

/-- A table with an operation applied at every place. -/
def Table.map {n : Nat} {α β : Type} (f : α → β) (t : Table n α) : Table n β :=
  ⟨⟨t.toArray.toList.map f⟩, by simp⟩

@[simp] theorem Table.at_map {n : Nat} {α β : Type} (f : α → β) (t : Table n α) (i : Fin n) :
    (t.map f).at i = f (t.at i) := by
  simp [Table.at, Table.map, Vector.get]
  rfl

/-- Every lane, in ascending order. -/
def allLanes : List Lane := List.finRange 32

/-- Every pair, in ascending order. -/
def allPairs : List Pair := List.finRange 16

/-- Every team slot, in ascending order. -/
def allSlots : List Slot := List.finRange 32

@[simp] theorem mem_allLanes (l : Lane) : l ∈ allLanes := List.mem_finRange l
@[simp] theorem mem_allPairs (p : Pair) : p ∈ allPairs := List.mem_finRange p
@[simp] theorem mem_allSlots (k : Slot) : k ∈ allSlots := List.mem_finRange k

/-- The full rack (spec/01, Pin pattern: 1023). -/
def fullRack : Pins := 1023#10

/-- The empty deck (spec/01, Pin pattern: 0). -/
def emptyDeck : Pins := 0#10

end Sys2Proof
end

