-- ==== Sys2Proof/Syntax.lean ====
section
/-! DEFINITION. Syntax.lean: the commands of the part, one constructor for each row of spec/opcode_table.json, and the values they carry. -/

namespace Sys2Proof

/-- A frame of the Desk Link (spec/01, Desk Link frame), its check left off: the check is computed (R25). -/
structure DeskFrame where
  addr : Byte
  kind : Byte
  payload : List Byte
  deriving DecidableEq, Repr

/-- A frame of the Lane Link (spec/01, Lane Link frame), its check left off: the check is computed (R25). -/
structure LaneFrame where
  addr : Byte
  kind : Byte
  payload : List Byte
  deriving DecidableEq, Repr

end Sys2Proof

namespace Sys2Proof.Machine

/-- The machine states of a lane (R27). -/
inductive MachineState where
  | off | ready | cycling | stopping | fault | service
  deriving DecidableEq, Repr

/-- The result a CYCLE_DONE carries (R7). -/
inductive CycleResult where
  | ok | aborted
  deriving DecidableEq, Repr

/-- The class of a machine fault (R38). -/
inductive FaultClass where
  | normal | safety
  deriving DecidableEq, Repr

/-- A cycle's kind, RESPOT with its pattern (R27, spec/01 CYCLE payload). -/
inductive CycleKind where
  | fullRack
  | respot (p : Pins)
  | pitClear
  | deckOff
  | warm
  deriving DecidableEq, Repr

/-- The classes of cycle request (R53). -/
inductive CycleClass where
  | inject | auto | batch
  deriving DecidableEq, Repr

/-- A cycle in flight (R27). -/
structure Cycle where
  tag : Byte
  kind : CycleKind
  cls : CycleClass
  fromBackup : Bool
  deriving DecidableEq, Repr

/-- The outcomes of a cycle end report (R35). -/
inductive CycleOutcome where
  | ok | aborted | timeout | fault
  deriving DecidableEq, Repr

/-- A cycle end report (R35): the lane, the cycle as it stood, the outcome and the machine's next state. -/
structure CycleReport where
  lane : Lane
  cycle : Cycle
  outcome : CycleOutcome
  next : MachineState
  deriving DecidableEq, Repr

/-- What the AUTO pending set holds for a lane, and what an AUTO post asks for (R54). -/
inductive AutoRequest where
  | fullRack
  | respot (p : Pins)
  deriving DecidableEq, Repr

/-- The pinfall view: the lane's machine state, deck and validity at the frame's classification (R78). -/
structure PinfallView where
  machine : MachineState
  deck : Pins
  valid : Bool
  deriving DecidableEq, Repr

end Sys2Proof.Machine

namespace Sys2Proof

open Machine

/-- One band of a tariff as TARIFF_LOAD sends it (R152). -/
structure WireBand where
  start : BitVec 16
  price : BitVec 16
  deriving DecidableEq, Repr

/-- One ball of an AMEND_COMMIT list (R128). -/
structure WireBall where
  pins : Byte
  foul : Byte
  deriving DecidableEq, Repr

/-- The commands of the part: the 82 rows of spec/opcode_table.json.
A command that names a lane or a pair by `Lane` or `Pair` is an event at a block.
A management request carries its tag and its fields as the wire gives them (R26). -/
inductive Instr where
  | partReset
  | laneFrame (bytes : List Byte)
  | pinfall (lane : Lane) (r : Pins)
  | pinfallScoring (lane : Lane) (r : Pins) (view : PinfallView)
  | cycleDone (lane : Lane) (tag : Byte) (result : CycleResult)
  | machineFault (lane : Lane) (code : Byte) (cls : FaultClass)
  | machineReady (lane : Lane)
  | cycleTimerExpiry (lane : Lane)
  | ballPass (lane : Lane) (speed : Nat)
  | foul (lane : Lane)
  | ballPassReturn (lane : Lane)
  | ballPassBilling (lane : Lane)
  | ballArrived (pair : Pair)
  | ballTaken (pair : Pair)
  | liftJam (pair : Pair)
  | liftClear (pair : Pair)
  | overdueTimerExpiry (pair : Pair)
  | correctionRequest (lane : Lane) (bowler frame reason : Nat)
  | startGame (lane : Lane)
  | autoPost (lane : Lane) (post : AutoRequest)
  | cycleEndReport (report : CycleReport)
  | readyChange (lane : Lane)
  | readyEntry (lane : Lane) (deck : Pins) (valid : Bool)
  | holdSetChange (lane : Lane)
  | gateEvaluation (lane : Lane)
  | laneCycleExit (lane : Lane)
  | clockAdvance
  | haltLineAssert
  | haltLineRelease
  | deskFrameReceive (bytes : List Byte)
  | deskContent (frame : DeskFrame)
  | deskLaneFrame (dest kind : Byte) (payload : List Byte)
  | unknownRequestCode (payload : List Byte)
  | downstreamLineFree
  | deskFrameSent
  | noticeDrain
  | status (tag : BitVec 16)
  | laneStatus (tag : BitVec 16) (lane : Byte)
  | paramSet (tag : BitVec 16) (budget rank1 rank2 rank3 batchLow cycleTimeout returnTimeout : Byte)
      (logHigh : BitVec 16) (safetyHalts : Byte)
  | paramRead (tag : BitVec 16)
  | timeSet (tag : BitVec 16) (seconds : BitVec 32)
  | commit (tag : BitVec 16)
  | reconfigure (tag : BitVec 16)
  | laneEnable (tag : BitVec 16) (lane : Byte)
  | laneDisable (tag : BitVec 16) (lane : Byte)
  | laneReset (tag : BitVec 16) (lane : Byte)
  | haltAll (tag : BitVec 16)
  | resumeAll (tag : BitVec 16)
  | laneMapLoad (tag : BitVec 16) (lane enabled ps fl cn : Byte)
  | pairMapLoad (tag : BitVec 16) (pair br capacity level initial : Byte)
  | dispositionLoad (tag : BitVec 16) (role kind action : Byte)
  | faultAck (tag : BitVec 16) (lane : Byte)
  | serviceEnter (tag : BitVec 16) (lane : Byte)
  | serviceExit (tag : BitVec 16) (lane : Byte)
  | laneHold (tag : BitVec 16) (lane : Byte)
  | laneRelease (tag : BitVec 16) (lane : Byte)
  | inject (tag : BitVec 16) (lane kind : Byte) (pattern : BitVec 16) (preempt : Byte)
  | injectCancel (tag : BitVec 16) (lane : Byte)
  | batchAdd (tag : BitVec 16) (first last kind : Byte)
  | batchFlush (tag : BitVec 16)
  | deliveryVoid (tag : BitVec 16) (lane : Byte)
  | teamLoad (tag : BitVec 16) (slot home auto size : Byte) (names : List (List Byte))
  | teamUnload (tag : BitVec 16) (slot : Byte)
  | teamRead (tag : BitVec 16) (slot bowler : Byte)
  | gameStart (tag : BitVec 16) (slot : Byte)
  | pairMode (tag : BitVec 16) (pair mode : Byte)
  | correctionClose (tag : BitVec 16) (lane : Byte)
  | amendReserve (tag : BitVec 16) (slot bowler frame : Byte)
  | amendCommit (tag : BitVec 16) (slot bowler frame count : Byte) (balls : List WireBall)
  | transitDiscard (tag : BitVec 16) (pair : Byte)
  | rackSet (tag : BitVec 16) (pair count : Byte)
  | pairAck (tag : BitVec 16) (pair causes : Byte)
  | pairStatus (tag : BitVec 16) (pair : Byte)
  | tariffLoad (tag : BitVec 16) (index basis count : Byte) (bands : List WireBand)
      (trigger gate warn rounding : Byte)
  | tariffRead (tag : BitVec 16) (index : Byte)
  | sessionOpen (tag : BitVec 16) (lane : Byte) (session : BitVec 16) (tariff : Byte) (credit : BitVec 16)
  | sessionTopup (tag : BitVec 16) (lane : Byte) (amount : BitVec 16)
  | sessionClose (tag : BitVec 16) (lane : Byte)
  | sessionRead (tag : BitVec 16) (lane : Byte)
  | chargeFetch (tag : BitVec 16) (n : Byte)
  | chargeSettle (tag : BitVec 16) (seq : BitVec 16)
  | chargeRewind (tag : BitVec 16)
  deriving DecidableEq, Repr

end Sys2Proof
end

