-- ==== Sys2Proof/Decode.lean ====
section
/-! DEFINITION. Decode.lean: the frames of both links read from bytes (R5, R12, R25), the command that the head of the desk receive queue is (R13, R181, R26), the wire form of a management request, and decodeTableWord. -/

namespace Sys2Proof

/-- A two-byte field, most significant byte first (spec/00, Byte order). -/
def word16 (hi lo : Byte) : BitVec 16 := hi ++ lo

/-- A four-byte field, most significant byte first. -/
def word32 (a b c d : Byte) : BitVec 32 := a ++ b ++ c ++ d

/-- The two bytes of a 16-bit field, most significant first. -/
def bytes16 (x : BitVec 16) : List Byte := [x.extractLsb' 8 8, x.extractLsb' 0 8]

/-- The four bytes of a 32-bit field, most significant first. -/
def bytes32 (x : BitVec 32) : List Byte :=
  [x.extractLsb' 24 8, x.extractLsb' 16 8, x.extractLsb' 8 8, x.extractLsb' 0 8]

/-! ### The 16-bit check (R25) -/

/-- One shift of the check's remainder register, generator x^16 + x^12 + x^5 + 1. -/
def checkShift (r : BitVec 16) : BitVec 16 :=
  if r.msb then (r <<< 1) ^^^ 0x1021#16 else r <<< 1

/-- The remainder register after one more byte, most significant bit first. -/
def checkByte (r : BitVec 16) (b : Byte) : BitVec 16 :=
  let r := r ^^^ (b.setWidth 16 <<< 8)
  checkShift (checkShift (checkShift (checkShift (checkShift (checkShift (checkShift (checkShift r)))))))

/-- The check of a frame: over every byte from the address to the last payload byte, the register
starting at all ones, with no final inversion (R25). -/
def frameCheck (bytes : List Byte) : BitVec 16 := bytes.foldl checkByte 0xFFFF#16

/-- The bytes of a Lane Link frame as sent, check included (spec/01, Lane Link frame). -/
def LaneFrame.wire (f : LaneFrame) : List Byte :=
  let body := f.addr :: f.kind :: BitVec.ofNat 8 f.payload.length :: f.payload
  body ++ bytes16 (frameCheck body)

/-- The bytes of a Desk Link frame as sent, check included (spec/01, Desk Link frame). -/
def DeskFrame.wire (f : DeskFrame) : List Byte :=
  let body := f.addr :: f.kind :: (bytes16 (BitVec.ofNat 16 f.payload.length) ++ f.payload)
  body ++ bytes16 (frameCheck body)

/-- The Lane Link frame that received bytes hold, none when the frame fails its check (R5). -/
def laneFrameOfBytes (bytes : List Byte) : Option LaneFrame :=
  match bytes with
  | addr :: kind :: len :: rest =>
    let n := len.toNat
    if rest.length = n + 2 ∧ n ≤ 28 ∧
        rest.drop n = bytes16 (frameCheck (addr :: kind :: len :: rest.take n)) then
      some ⟨addr, kind, rest.take n⟩
    else none
  | _ => none

/-- The Desk Link frame that received bytes hold, none when the frame fails its check (R12). -/
def deskFrameOfBytes (bytes : List Byte) : Option DeskFrame :=
  match bytes with
  | addr :: kind :: l1 :: l0 :: rest =>
    let n := (word16 l1 l0).toNat
    if rest.length = n + 2 ∧ n ≤ 512 ∧
        rest.drop n = bytes16 (frameCheck (addr :: kind :: l1 :: l0 :: rest.take n)) then
      some ⟨addr, kind, rest.take n⟩
    else none
  | _ => none

/-! ### Management requests (R26, R181, the request catalogue 11.8) -/

/-- Name tags: each one byte of length, then its characters (R26). -/
def parseNames : Nat → List Byte → Option (List (List Byte))
  | 0, [] => some []
  | 0, _ :: _ => none
  | _ + 1, [] => none
  | n + 1, len :: rest =>
    if len.toNat ≤ rest.length then
      match parseNames n (rest.drop len.toNat) with
      | some names => some (rest.take len.toNat :: names)
      | none => none
    else none

/-- The balls of an AMEND_COMMIT list, two bytes each, and nothing after them (R128). -/
def parseBalls : Nat → List Byte → Option (List WireBall)
  | 0, [] => some []
  | n + 1, pins :: foul :: rest =>
    match parseBalls n rest with
    | some balls => some (⟨pins, foul⟩ :: balls)
    | none => none
  | _, _ => none

/-- The bands of a TARIFF_LOAD, four bytes each, with the bytes after them (R152). -/
def parseBands : Nat → List Byte → Option (List WireBand × List Byte)
  | 0, rest => some ([], rest)
  | n + 1, s1 :: s0 :: p1 :: p0 :: rest =>
    match parseBands n rest with
    | some (bands, more) => some (⟨word16 s1 s0, word16 p1 p0⟩ :: bands, more)
    | none => none
  | _ + 1, _ => none

/-- The request a code and its fields spell; none for a code not in the catalogue or a wrong length (R181). -/
def requestOfFields (tag : BitVec 16) (code : Nat) (fields : List Byte) : Option Instr :=
  match code with
  | 1 => match fields with | [] => some (.status tag) | _ => none
  | 2 => match fields with | [a] => some (.laneStatus tag a) | _ => none
  | 3 => match fields with
    | [a, r1, r2, r3, b, c, d, h1, h0, e] => some (.paramSet tag a r1 r2 r3 b c d (word16 h1 h0) e)
    | _ => none
  | 4 => match fields with | [] => some (.paramRead tag) | _ => none
  | 5 => match fields with | [a, b, c, d] => some (.timeSet tag (word32 a b c d)) | _ => none
  | 6 => match fields with | [] => some (.commit tag) | _ => none
  | 7 => match fields with | [] => some (.reconfigure tag) | _ => none
  | 8 => match fields with | [a] => some (.laneEnable tag a) | _ => none
  | 9 => match fields with | [a] => some (.laneDisable tag a) | _ => none
  | 10 => match fields with | [a] => some (.laneReset tag a) | _ => none
  | 11 => match fields with | [] => some (.haltAll tag) | _ => none
  | 12 => match fields with | [] => some (.resumeAll tag) | _ => none
  | 16 => match fields with | [a, b, c, d, e] => some (.laneMapLoad tag a b c d e) | _ => none
  | 17 => match fields with | [a, b, c, d, e] => some (.pairMapLoad tag a b c d e) | _ => none
  | 18 => match fields with | [a, b, c] => some (.dispositionLoad tag a b c) | _ => none
  | 24 => match fields with | [a] => some (.faultAck tag a) | _ => none
  | 25 => match fields with | [a] => some (.serviceEnter tag a) | _ => none
  | 26 => match fields with | [a] => some (.serviceExit tag a) | _ => none
  | 27 => match fields with | [a] => some (.laneHold tag a) | _ => none
  | 28 => match fields with | [a] => some (.laneRelease tag a) | _ => none
  | 32 => match fields with | [l, k, p1, p0, e] => some (.inject tag l k (word16 p1 p0) e) | _ => none
  | 33 => match fields with | [a] => some (.injectCancel tag a) | _ => none
  | 34 => match fields with | [a, b, c] => some (.batchAdd tag a b c) | _ => none
  | 35 => match fields with | [] => some (.batchFlush tag) | _ => none
  | 40 => match fields with | [a] => some (.deliveryVoid tag a) | _ => none
  | 41 => match fields with
    | slot :: home :: auto :: size :: rest =>
      match parseNames size.toNat rest with
      | some names => some (.teamLoad tag slot home auto size names)
      | none => none
    | _ => none
  | 42 => match fields with | [a] => some (.teamUnload tag a) | _ => none
  | 43 => match fields with | [a, b] => some (.teamRead tag a b) | _ => none
  | 44 => match fields with | [a] => some (.gameStart tag a) | _ => none
  | 45 => match fields with | [a, b] => some (.pairMode tag a b) | _ => none
  | 48 => match fields with | [a] => some (.correctionClose tag a) | _ => none
  | 49 => match fields with | [a, b, c] => some (.amendReserve tag a b c) | _ => none
  | 50 => match fields with
    | slot :: bowler :: frame :: count :: rest =>
      match parseBalls count.toNat rest with
      | some balls => some (.amendCommit tag slot bowler frame count balls)
      | none => none
    | _ => none
  | 56 => match fields with | [a] => some (.transitDiscard tag a) | _ => none
  | 57 => match fields with | [a, b] => some (.rackSet tag a b) | _ => none
  | 58 => match fields with | [a, b] => some (.pairAck tag a b) | _ => none
  | 59 => match fields with | [a] => some (.pairStatus tag a) | _ => none
  | 64 => match fields with
    | index :: basis :: count :: rest =>
      match parseBands count.toNat rest with
      | some (bands, [trigger, gate, warn, rounding]) =>
        some (.tariffLoad tag index basis count bands trigger gate warn rounding)
      | _ => none
    | _ => none
  | 65 => match fields with | [a] => some (.tariffRead tag a) | _ => none
  | 66 => match fields with
    | [l, i1, i0, t, c1, c0] => some (.sessionOpen tag l (word16 i1 i0) t (word16 c1 c0))
    | _ => none
  | 67 => match fields with | [l, a1, a0] => some (.sessionTopup tag l (word16 a1 a0)) | _ => none
  | 68 => match fields with | [a] => some (.sessionClose tag a) | _ => none
  | 69 => match fields with | [a] => some (.sessionRead tag a) | _ => none
  | 72 => match fields with | [a] => some (.chargeFetch tag a) | _ => none
  | 73 => match fields with | [s1, s0] => some (.chargeSettle tag (word16 s1 s0)) | _ => none
  | 74 => match fields with | [] => some (.chargeRewind tag) | _ => none
  | _ => none

/-- The command a management request payload is (R181): a request of the catalogue, or a request that is
too short, unknown or of a wrong length. -/
def requestOfPayload (payload : List Byte) : Instr :=
  match payload with
  | t1 :: t0 :: code :: fields =>
    match requestOfFields (word16 t1 t0) code.toNat fields with
    | some i => i
    | none => .unknownRequestCode payload
  | _ => .unknownRequestCode payload

/-- The command that taking a frame at the head of the desk receive queue is (R13). -/
def commandOfFrame (f : DeskFrame) : Instr :=
  if f.kind = 2 ∧ f.addr = 0 then requestOfPayload f.payload
  else if f.kind = 1 ∧ 1 ≤ f.addr.toNat ∧ f.addr.toNat ≤ 127 then
    match f.payload with
    | kind :: payload =>
      if kind.toNat ≤ 31 ∧ payload.length ≤ 28 then .deskLaneFrame f.addr kind payload else .deskContent f
    | [] => .deskContent f
  else .deskContent f

/-! ### The wire form of a request -/

/-- The header of a request, then its fields (spec/01, Management request and response headers). -/
def requestBytes (tag : BitVec 16) (code : Nat) (fields : List Byte) : List Byte :=
  bytes16 tag ++ [BitVec.ofNat 8 code] ++ fields

/-- Name tags as sent (R26). -/
def nameBytes (names : List (List Byte)) : List Byte :=
  names.flatMap fun n => BitVec.ofNat 8 n.length :: n

/-- The balls of an AMEND_COMMIT as sent. -/
def ballBytes (balls : List WireBall) : List Byte := balls.flatMap fun b => [b.pins, b.foul]

/-- The bands of a TARIFF_LOAD as sent. -/
def bandBytes (bands : List WireBand) : List Byte :=
  bands.flatMap fun b => bytes16 b.start ++ bytes16 b.price

/-- The payload of the MGMT_REQ frame that carries a request; none for a command that is no request. -/
def requestPayload (i : Instr) : Option (List Byte) :=
  match i with
  | .partReset => none
  | .laneFrame _ => none
  | .pinfall _ _ => none
  | .pinfallScoring _ _ _ => none
  | .cycleDone _ _ _ => none
  | .machineFault _ _ _ => none
  | .machineReady _ => none
  | .cycleTimerExpiry _ => none
  | .ballPass _ _ => none
  | .foul _ => none
  | .ballPassReturn _ => none
  | .ballPassBilling _ => none
  | .ballArrived _ => none
  | .ballTaken _ => none
  | .liftJam _ => none
  | .liftClear _ => none
  | .overdueTimerExpiry _ => none
  | .correctionRequest _ _ _ _ => none
  | .startGame _ => none
  | .autoPost _ _ => none
  | .cycleEndReport _ => none
  | .readyChange _ => none
  | .readyEntry _ _ _ => none
  | .holdSetChange _ => none
  | .gateEvaluation _ => none
  | .laneCycleExit _ => none
  | .clockAdvance => none
  | .haltLineAssert => none
  | .haltLineRelease => none
  | .deskFrameReceive _ => none
  | .deskContent _ => none
  | .deskLaneFrame _ _ _ => none
  | .unknownRequestCode _ => none
  | .downstreamLineFree => none
  | .deskFrameSent => none
  | .noticeDrain => none
  | .status tag => some (requestBytes tag 1 [])
  | .laneStatus tag a => some (requestBytes tag 2 [a])
  | .paramSet tag a r1 r2 r3 b c d h e => some (requestBytes tag 3 ([a, r1, r2, r3, b, c, d] ++ bytes16 h ++ [e]))
  | .paramRead tag => some (requestBytes tag 4 [])
  | .timeSet tag t => some (requestBytes tag 5 (bytes32 t))
  | .commit tag => some (requestBytes tag 6 [])
  | .reconfigure tag => some (requestBytes tag 7 [])
  | .laneEnable tag a => some (requestBytes tag 8 [a])
  | .laneDisable tag a => some (requestBytes tag 9 [a])
  | .laneReset tag a => some (requestBytes tag 10 [a])
  | .haltAll tag => some (requestBytes tag 11 [])
  | .resumeAll tag => some (requestBytes tag 12 [])
  | .laneMapLoad tag a b c d e => some (requestBytes tag 16 [a, b, c, d, e])
  | .pairMapLoad tag a b c d e => some (requestBytes tag 17 [a, b, c, d, e])
  | .dispositionLoad tag a b c => some (requestBytes tag 18 [a, b, c])
  | .faultAck tag a => some (requestBytes tag 24 [a])
  | .serviceEnter tag a => some (requestBytes tag 25 [a])
  | .serviceExit tag a => some (requestBytes tag 26 [a])
  | .laneHold tag a => some (requestBytes tag 27 [a])
  | .laneRelease tag a => some (requestBytes tag 28 [a])
  | .inject tag l k p e => some (requestBytes tag 32 ([l, k] ++ bytes16 p ++ [e]))
  | .injectCancel tag a => some (requestBytes tag 33 [a])
  | .batchAdd tag a b c => some (requestBytes tag 34 [a, b, c])
  | .batchFlush tag => some (requestBytes tag 35 [])
  | .deliveryVoid tag a => some (requestBytes tag 40 [a])
  | .teamLoad tag slot home auto size names =>
    some (requestBytes tag 41 ([slot, home, auto, size] ++ nameBytes names))
  | .teamUnload tag a => some (requestBytes tag 42 [a])
  | .teamRead tag a b => some (requestBytes tag 43 [a, b])
  | .gameStart tag a => some (requestBytes tag 44 [a])
  | .pairMode tag a b => some (requestBytes tag 45 [a, b])
  | .correctionClose tag a => some (requestBytes tag 48 [a])
  | .amendReserve tag a b c => some (requestBytes tag 49 [a, b, c])
  | .amendCommit tag slot bowler frame count balls =>
    some (requestBytes tag 50 ([slot, bowler, frame, count] ++ ballBytes balls))
  | .transitDiscard tag a => some (requestBytes tag 56 [a])
  | .rackSet tag a b => some (requestBytes tag 57 [a, b])
  | .pairAck tag a b => some (requestBytes tag 58 [a, b])
  | .pairStatus tag a => some (requestBytes tag 59 [a])
  | .tariffLoad tag index basis count bands trigger gate warn rounding =>
    some (requestBytes tag 64 ([index, basis, count] ++ bandBytes bands ++ [trigger, gate, warn, rounding]))
  | .tariffRead tag a => some (requestBytes tag 65 [a])
  | .sessionOpen tag l i t c => some (requestBytes tag 66 ([l] ++ bytes16 i ++ [t] ++ bytes16 c))
  | .sessionTopup tag l a => some (requestBytes tag 67 ([l] ++ bytes16 a))
  | .sessionClose tag a => some (requestBytes tag 68 [a])
  | .sessionRead tag a => some (requestBytes tag 69 [a])
  | .chargeFetch tag a => some (requestBytes tag 72 [a])
  | .chargeSettle tag q => some (requestBytes tag 73 (bytes16 q))
  | .chargeRewind tag => some (requestBytes tag 74 [])

/-- The table gives its rows no bits, so no word spells a command. -/
def decodeTableWord (_nbits _w : Nat) : Option Instr := none

end Sys2Proof
end

