-- ==== Sys2Proof/Config.lean ====
section
/-! DEFINITION. Config.lean: the sizes the manual fixes, and the free values, which the manual leaves open. -/

namespace Sys2Proof

/-- Places of the desk receive queue (R12). -/
def Config.deskReceivePlaces : Nat := 16

/-- The transmit queue length below which copies and notices enter (R19). -/
def Config.transmitOpenBelow : Nat := 56

/-- The number of queued responses below which a request is taken (R13). -/
def Config.responsePlaces : Nat := 8

/-- Places of the forward-down queue (R15). -/
def Config.forwardDownPlaces : Nat := 16

/-- Places of the batch queue (R58). -/
def Config.batchPlaces : Nat := 16

/-- Places of a pair's transit queue (R133). -/
def Config.transitPlaces : Nat := 8

/-- Places of the charge log (R172). -/
def Config.logPlaces : Nat := 256

/-- The limit of a game totals list (R89). -/
def Config.totalsPlaces : Nat := 10

/-- FREE VALUE. The amount a 48-bit accrued or combined amount takes when the sum does not fit 48 bits:
the manual states no result there (R154, log 11). It is applied to the counter `State.draws`. -/
opaque Config.freeAmount : Nat → BitVec 48

end Sys2Proof
end

