-- ==== Sys2Proof/Machine/State.lean ====
section
/-! DEFINITION. Machine/State.lean: the state of the part, block by block, as the spec gives it, and its value after a part reset. -/

namespace Sys2Proof.Machine

/-- The ways the part stops. The spec gives it none: a bad frame is discarded (R5, R12), a bad request is
answered (R181), a machine fault is a state (R38). No meaning ends in a fault. -/
inductive Fault where
  /-- Raised by no meaning: the type has this one name so that it is inhabited (safe). -/
  | unreached
  deriving DecidableEq, Repr

/-- The refusals. Every command of the table has its meaning, so none is raised. -/
inductive Refusal where
  /-- A command without a meaning, named by its mnemonic. Raised by no arm of exec (safe). -/
  | notModelled (mnemonic : String)
  deriving DecidableEq, Repr

/-! ### Lane Link Interface -/

/-- The lane notice codes (R17). -/
inductive ConsoleCode where
  | busy | warn | expired | rackHigh
  deriving DecidableEq, Repr

/-- A lane's console traffic (R17). -/
structure Console where
  stale : Bool
  notices : List ConsoleCode
  deriving DecidableEq, Repr

/-- The Lane Link Interface's state (R15 to R18). -/
structure LaneLink where
  stopMarks : Table 32 (Option Byte)
  cycleList : List (Lane × Byte)
  liftMarks : Table 16 Bool
  probeMarks : Table 32 Bool
  console : Table 32 Console
  consolePointer : Lane
  /-- Whether the console traffic had the previous lowest-tier turn (R18). -/
  consoleHadTurn : Bool
  forwardDown : List LaneFrame
  /-- The frame the downstream line carries (log 9). -/
  line : Option LaneFrame
  deriving DecidableEq, Repr

/-! ### Desk Link Interface -/

/-- The notice kinds whose subject is a lane (R20). -/
inductive LaneNoticeKind where
  | machineFault | machineReady | serviceReady | lateDone | stray
  | correction | gameEnd | warn | expired | forwardRefused
  deriving DecidableEq, Repr

/-- The notice kinds whose subject is a pair (R20). -/
inductive PairNoticeKind where
  | pairFault | rackHigh | unmatched
  deriving DecidableEq, Repr

/-- The notice kinds whose subject is the part (R20). -/
inductive PartNoticeKind where
  | logHigh | batchLow | linkError | rxOverrun | partState | forwardRefused
  deriving DecidableEq, Repr

/-- An entry of the pending notice list: a kind with the subject its kind fixes (R20). -/
inductive Notice where
  | ofLane (kind : LaneNoticeKind) (lane : Lane)
  | ofPair (kind : PairNoticeKind) (pair : Pair)
  | ofPart (kind : PartNoticeKind)
  deriving DecidableEq, Repr

/-- The link error set (R23). -/
structure LinkErrors where
  laneCheck : Bool
  laneContent : Bool
  deskCheck : Bool
  deskContent : Bool
  deriving DecidableEq, Repr

/-- The Desk Link Interface's state (R12, R19, R20, R23). -/
structure DeskLink where
  rx : List DeskFrame
  tx : List DeskFrame
  notices : List Notice
  linkErrors : LinkErrors
  deriving DecidableEq, Repr

/-! ### Frame Router -/

/-- A lane entry of the Lane Map (R1). -/
structure LaneEntry where
  enabled : Bool
  ps : Option Byte
  fl : Option Byte
  cn : Option Byte
  deriving DecidableEq, Repr

/-- A pair entry of the Lane Map (R1). -/
structure PairEntry where
  br : Option Byte
  capacity : Nat
  almostFull : Nat
  initialRack : Nat
  deriving DecidableEq, Repr

/-- The roles of nodes, numbered as for DISPOSITION_LOAD (spec/01): PS 0, FL 1, BR 2, CN 3. -/
inductive Role where
  | ps | fl | br | cn
  deriving DecidableEq, Repr

/-- The dispositions (R9). -/
inductive Disposition where
  | consume | consumeCopy | forward | drop
  deriving DecidableEq, Repr

/-- The reasons of a forward refusal (R24). -/
inductive RefusalReason where
  | unknownDest | partHalted | psNotInService | partOwned | queueFull
  deriving DecidableEq, Repr

/-- A refusal record (R24). -/
structure RefusalRecord where
  dest : Byte
  reason : RefusalReason
  deriving DecidableEq, Repr

/-- The Frame Router's state (R1, R9, R24). -/
structure Router where
  lanes : Table 32 LaneEntry
  pairs : Table 16 PairEntry
  dispositions : Table 4 (Table 32 Disposition)
  laneRefusals : Table 32 (Option RefusalRecord)
  partRefusal : Option RefusalRecord
  deriving DecidableEq, Repr

/-! ### Pinsetter Supervisor -/

/-- A lane's fault record (R27). -/
structure FaultRecord where
  code : Byte
  cls : FaultClass
  nodeCleared : Bool
  deskAcked : Bool
  deriving DecidableEq, Repr

/-- The report a stray record holds (R27). -/
inductive StrayReport where
  | cycleDone (tag : Byte) (result : CycleResult)
  | pinfall (r : Pins)
  | machineReady
  deriving DecidableEq, Repr

/-- A lane's stray record (R27). -/
structure StrayRecord where
  report : StrayReport
  machine : MachineState
  deriving DecidableEq, Repr

/-- A lane's late record (R27). -/
structure LateRecord where
  tag : Byte
  result : Option CycleResult
  deriving DecidableEq, Repr

/-- The hold causes (R48). -/
inductive HoldCause where
  | desk | halt | pair | credit | logfull
  deriving DecidableEq, Repr

/-- A hold set: which of the five causes are present (R48). -/
structure HoldSet where
  desk : Bool
  halt : Bool
  pair : Bool
  credit : Bool
  logfull : Bool
  deriving DecidableEq, Repr

/-- A lane machine record (R27). -/
structure LaneMachine where
  state : MachineState
  deck : Pins
  deckValid : Bool
  tag : Byte
  inFlight : Option Cycle
  timer : Option Nat
  fault : Option FaultRecord
  serviceRequested : Bool
  stray : Option StrayRecord
  late : Option LateRecord
  holds : HoldSet
  deriving DecidableEq, Repr

/-! ### Cycle Dispatcher -/

/-- The request in the inject slot (R56). -/
structure InjectRequest where
  lane : Lane
  kind : CycleKind
  preempt : Bool
  bound : Bool
  cancelled : Bool
  deriving DecidableEq, Repr

/-- An entry of the batch queue (R58). Lanes and cursor are lane numbers 1 to 32. -/
structure BatchEntry where
  first : Nat
  last : Nat
  kind : CycleKind
  cursor : Nat
  deriving DecidableEq, Repr

/-- A lane's back-up (R63). -/
structure Backup where
  kind : CycleKind
  origin : CycleClass
  deriving DecidableEq, Repr

/-- The Cycle Dispatcher's state (R72). -/
structure Dispatcher where
  auto : Table 32 (Option AutoRequest)
  pointer : Lane
  inject : Option InjectRequest
  batch : List BatchEntry
  backups : Table 32 (Option Backup)
  discardOnAbort : Table 32 Bool
  deriving DecidableEq, Repr

/-! ### Scoring Engine -/

/-- A delivery in flight (R74): LIVE or DEAD with its details. -/
structure Delivery where
  live : Bool
  speed : Nat
  before : Pins
  fouled : Bool
  deriving DecidableEq, Repr

/-- A ball record (R81, R90). -/
structure Ball where
  pins : Nat
  after : Pins
  foul : Bool
  unseen : Bool
  mismatch : Bool
  amended : Bool
  speed : Option Nat
  deriving DecidableEq, Repr

/-- The marks of a frame (R104). -/
inductive Mark where
  | strike | spare | openFrame
  deriving DecidableEq, Repr

/-- A frame record (R90). -/
structure FrameRecord where
  balls : List Ball
  mark : Option Mark
  score : Option Nat
  cumulative : Option Nat
  deriving DecidableEq, Repr

/-- An entry of a game totals list (R89). -/
structure GameTotal where
  game : Nat
  total : Nat
  deriving DecidableEq, Repr

/-- A bowler record (R89). -/
structure Bowler where
  name : List Byte
  totals : List GameTotal
  frames : Table 10 FrameRecord
  deriving DecidableEq, Repr

/-- The standby reasons (R88). -/
inductive StandbyReason where
  | new | noSession | noCredit | locked | logFull | gameOver | reset
  deriving DecidableEq, Repr

/-- The state of a context that is not EMPTY, STANDBY with its reason (R88). -/
inductive TeamState where
  | standby (reason : StandbyReason)
  | bowling
  | waitingCross
  deriving DecidableEq, Repr

/-- An amendment reservation (R125). -/
structure Reservation where
  bowler : Nat
  frame : Nat
  deriving DecidableEq, Repr

/-- What names a ball record: bowler, frame and ball, each counted from 1 (R88). -/
structure BallRef where
  bowler : Nat
  frame : Nat
  ball : Nat
  deriving DecidableEq, Repr

/-- A team context that is not EMPTY (R88). -/
structure Team where
  state : TeamState
  home : Lane
  seated : Lane
  roster : List Bowler
  bowler : Nat
  frame : Nat
  ball : Nat
  target : Pins
  game : Nat
  autoContinue : Bool
  reservation : Option Reservation
  inProgress : Bool
  recent : Option BallRef
  deriving DecidableEq, Repr

/-- The pair modes (R110). -/
inductive PairMode where
  | opened | paired
  deriving DecidableEq, Repr

/-- A lane's correction slot when it holds a request (R120). -/
structure Correction where
  team : Slot
  bowler : Nat
  frame : Nat
  reason : Nat
  deriving DecidableEq, Repr

/-- The Scoring Engine's state (R74, R88, R110, R120). A context of `none` is EMPTY, a delivery of `none` is NONE. -/
structure Scoring where
  deliveries : Table 32 (Option Delivery)
  teams : Table 32 (Option Team)
  modes : Table 16 PairMode
  corrections : Table 32 (Option Correction)
  deriving DecidableEq, Repr

/-! ### Ball Return Monitor -/

/-- A transit entry (R132). -/
structure Transit where
  lane : Lane
  passTime : Nat
  deriving DecidableEq, Repr

/-- The pair fault causes (R132). -/
inductive FaultCause where
  | overdue | jam | overflow | overrun
  deriving DecidableEq, Repr

/-- The fault cause set: for each cause, absent, or present with its condition-ended flag (R142). -/
structure FaultCauses where
  overdue : Option Bool
  jam : Option Bool
  overflow : Option Bool
  overrun : Option Bool
  deriving DecidableEq, Repr

/-- A pair record (R132). `lift` is true for RUN. -/
structure PairRecord where
  transit : List Transit
  rack : Nat
  capacity : Nat
  almostFull : Nat
  lift : Bool
  timer : Option Nat
  oldestOverdue : Bool
  causes : FaultCauses
  unmatchedArrivals : Nat
  unmatchedTakes : Nat
  deriving DecidableEq, Repr

/-! ### Billing Unit -/

/-- A band of a tariff (R151). -/
structure Band where
  start : Nat
  price : Nat
  deriving DecidableEq, Repr

/-- The start triggers (R151). -/
inductive Trigger where
  | onOpen | onFirstBall | onGameStart
  deriving DecidableEq, Repr

/-- The gates (R151). -/
inductive Gate where
  | none | machine | machineAndReturn
  deriving DecidableEq, Repr

/-- The fields a PER_TIME tariff alone has (R151). -/
structure TimedTerms where
  trigger : Trigger
  gate : Gate
  warn : Nat
  rounding : Nat
  deriving DecidableEq, Repr

/-- A loaded tariff (R151): PER_TIME when it has timed terms, PER_GAME otherwise. -/
structure Tariff where
  bands : List Band
  timed : Option TimedTerms
  deriving DecidableEq, Repr

/-- The session states (R154). -/
inductive SessionState where
  | closed | armed | running | suspended | expired
  deriving DecidableEq, Repr

/-- What a charge record holds beside the common fields (R171). -/
inductive ChargeBody where
  | game (slot game bowlers price : Nat) (amount : BitVec 48)
  | time (band minutes price : Nat) (amount : BitVec 48)
  | close (games minutes : Nat) (amount : BitVec 48) (partialCharged : Bool)
  deriving DecidableEq, Repr

/-- A charge record before it has a sequence number (R171). -/
structure Charge where
  session : BitVec 16
  lane : Lane
  stamp : Nat
  body : ChargeBody
  deriving DecidableEq, Repr

/-- A charge record held in the log (R171). -/
structure LogRecord where
  seq : BitVec 16
  charge : Charge
  deriving DecidableEq, Repr

/-- A session record (R154). -/
structure Session where
  state : SessionState
  id : BitVec 16
  tariff : TariffIndex
  credit : Option Nat
  reserved : Nat
  seconds : Nat
  segMinutes : Nat
  segBand : Option Nat
  segAmount : Nat
  accrued : BitVec 48
  games : Nat
  minutes : Nat
  partialCharged : Bool
  owed : Option Charge
  warned : Bool
  causeGate : Bool
  causeLogFull : Bool
  deriving DecidableEq, Repr

/-- The Billing Unit's state (R151, R154, R172). -/
structure Billing where
  tariffs : Table 16 (Option Tariff)
  sessions : Table 32 Session
  log : List LogRecord
  nextSeq : BitVec 16
  fetchPos : BitVec 16
  deriving DecidableEq, Repr

/-! ### Management Request Processor -/

/-- The part states (R182). -/
inductive PartState where
  | config | run | halting | halted
  deriving DecidableEq, Repr

/-- The parameter set (R183). -/
structure Params where
  slotBudget : Nat
  ranks : List CycleClass
  batchLow : Nat
  cycleTimeout : Nat
  returnTimeout : Nat
  logHigh : Nat
  safetyHalts : Bool
  deriving DecidableEq, Repr

/-- The drive causes (R192). -/
inductive DriveCause where
  | desk
  | safety (lane : Lane)
  deriving DecidableEq, Repr

/-- The Halt Line controller (R192). `others` is the environment: whether any other party asserts the line (log 8). -/
structure HaltLine where
  observed : Bool
  drive : Bool
  cause : Option DriveCause
  resumeRequested : Bool
  others : Bool
  deriving DecidableEq, Repr

/-- The Management Request Processor's state (R182 to R184, R192). -/
structure Management where
  part : PartState
  params : Params
  clock : Nat
  clockSet : Bool
  halt : HaltLine
  deriving DecidableEq, Repr

/-! ### The part -/

/-- The state of the part: its blocks (spec/00, Block overview), the events its blocks owe each other
(log 2), the queue of commands, and the counter the free values are drawn by (log 11). -/
structure State where
  lli : LaneLink
  dli : DeskLink
  frr : Router
  psv : Table 32 LaneMachine
  cdp : Dispatcher
  sce : Scoring
  brm : Table 16 PairRecord
  blu : Billing
  mrp : Management
  owed : List Instr
  pending : List Instr
  draws : Nat
  deriving DecidableEq, Repr

/-! ### Reset values -/

/-- The empty hold set (R48). -/
def HoldSet.empty : HoldSet := ⟨false, false, false, false, false⟩

/-- The empty link error set (R23). -/
def LinkErrors.empty : LinkErrors := ⟨false, false, false, false⟩

/-- The empty fault cause set (R142). -/
def FaultCauses.empty : FaultCauses := ⟨none, none, none, none⟩

/-- A lane machine record after a part reset (R27). -/
def LaneMachine.reset : LaneMachine :=
  { state := .off, deck := emptyDeck, deckValid := false, tag := 0, inFlight := none, timer := none,
    fault := none, serviceRequested := false, stray := none, late := none, holds := HoldSet.empty }

/-- A pair record after a part reset (R132). -/
def PairRecord.reset : PairRecord :=
  { transit := [], rack := 0, capacity := 12, almostFull := 2, lift := false, timer := none,
    oldestOverdue := false, causes := FaultCauses.empty, unmatchedArrivals := 0, unmatchedTakes := 0 }

/-- A session record after a part reset (R154). -/
def Session.reset : Session :=
  { state := .closed, id := 0, tariff := 0, credit := none, reserved := 0, seconds := 0, segMinutes := 0,
    segBand := none, segAmount := 0, accrued := 0, games := 0, minutes := 0, partialCharged := false,
    owed := none, warned := false, causeGate := false, causeLogFull := false }

/-- The parameter set after a part reset (R183). -/
def Params.reset : Params :=
  { slotBudget := 4, ranks := [.inject, .auto, .batch], batchLow := 4, cycleTimeout := 12,
    returnTimeout := 25, logHigh := 192, safetyHalts := true }

/-- The disposition table after a part reset: CONSUME for the twelve acted-on pairs of role and kind, FORWARD for the
other 116 (R9). The kinds of a role's row are PS 1 to 4, FL 5 and 6, BR 7 to 10, CN 11 and 12 (R7, spec/01 kinds). -/
def resetDispositions : Table 4 (Table 32 Disposition) :=
  let row (kinds : List (Fin 32)) : Table 32 Disposition :=
    kinds.foldl (fun t k => t.put k .consume) (Table.fill 32 .forward)
  (((((Table.fill 4 (Table.fill 32 .forward)).put 0 (row [1, 2, 3, 4])).put 1 (row [5, 6])).put 2
    (row [7, 8, 9, 10])).put 3 (row [11, 12]))

/-- The state right after a part reset. The Halt Line is observed released and no other party asserts it
(DESIGN CHOICE, log 8); the manual gives every other value. -/
def State.reset : State :=
  { lli :=
      { stopMarks := Table.fill 32 none, cycleList := [], liftMarks := Table.fill 16 false,
        probeMarks := Table.fill 32 false, console := Table.fill 32 ⟨false, []⟩, consolePointer := 31,
        consoleHadTurn := true, forwardDown := [], line := none }
    dli := { rx := [], tx := [], notices := [], linkErrors := LinkErrors.empty }
    frr :=
      { lanes := Table.fill 32 ⟨false, none, none, none⟩, pairs := Table.fill 16 ⟨none, 12, 2, 0⟩,
        dispositions := resetDispositions, laneRefusals := Table.fill 32 none, partRefusal := none }
    psv := Table.fill 32 LaneMachine.reset
    cdp :=
      { auto := Table.fill 32 none, pointer := 31, inject := none, batch := [],
        backups := Table.fill 32 none, discardOnAbort := Table.fill 32 false }
    sce :=
      { deliveries := Table.fill 32 none, teams := Table.fill 32 none, modes := Table.fill 16 .opened,
        corrections := Table.fill 32 none }
    brm := Table.fill 16 PairRecord.reset
    blu :=
      { tariffs := Table.fill 16 none, sessions := Table.fill 32 Session.reset, log := [], nextSeq := 0,
        fetchPos := 0 }
    mrp :=
      { part := .config, params := Params.reset, clock := 0, clockSet := false,
        halt := { observed := false, drive := false, cause := none, resumeRequested := false, others := false } }
    owed := []
    pending := []
    draws := 0 }

end Sys2Proof.Machine
end

