-- ==== Sys2Proof/Machine/Flags.lean ====
section
/-! DEFINITION. Machine/Flags.lean: the sets the spec keeps as flags (hold set, link error set, fault cause set, suspend causes) and the byte each is sent as. -/

namespace Sys2Proof.Machine

/-- The byte whose bits are given, least significant first (R26: a set of named values). -/
def bitsByte (bits : List Bool) : Byte :=
  bits.foldr (fun b r => (r <<< 1) ||| (if b then 1#8 else 0#8)) 0#8

/-! ### Hold sets (R48) -/

/-- Whether a cause is present. -/
def HoldSet.has (h : HoldSet) : HoldCause → Bool
  | .desk => h.desk
  | .halt => h.halt
  | .pair => h.pair
  | .credit => h.credit
  | .logfull => h.logfull

/-- The set with one cause present or absent; a claim of a cause already present and a release of one
not present leave it unchanged (R48). -/
def HoldSet.set (h : HoldSet) (c : HoldCause) (present : Bool) : HoldSet :=
  match c with
  | .desk => { h with desk := present }
  | .halt => { h with halt := present }
  | .pair => { h with pair := present }
  | .credit => { h with credit := present }
  | .logfull => { h with logfull := present }

/-- Whether no cause is present. -/
def HoldSet.isEmpty (h : HoldSet) : Bool :=
  !(h.desk || h.halt || h.pair || h.credit || h.logfull)

/-- The hold set as sent: DESK, HALT, PAIR, CREDIT, LOGFULL in the order of R48 (R26). -/
def HoldSet.byte (h : HoldSet) : Byte := bitsByte [h.desk, h.halt, h.pair, h.credit, h.logfull]

@[simp] theorem HoldSet.has_set_same (h : HoldSet) (c : HoldCause) (b : Bool) : (h.set c b).has c = b := by
  cases c <;> rfl

theorem HoldSet.has_set (h : HoldSet) (c d : HoldCause) (b : Bool) :
    (h.set c b).has d = if d = c then b else h.has d := by
  cases c <;> cases d <;> rfl

/-! ### The link error set (R23) -/

/-- The four detections (R23). -/
inductive LinkError where
  | laneCheck | laneContent | deskCheck | deskContent
  deriving DecidableEq, Repr

/-- The set with a detection added. -/
def LinkErrors.add (e : LinkErrors) : LinkError → LinkErrors
  | .laneCheck => { e with laneCheck := true }
  | .laneContent => { e with laneContent := true }
  | .deskCheck => { e with deskCheck := true }
  | .deskContent => { e with deskContent := true }

/-- The LINK_ERROR content byte (spec/01, after the header table). -/
def LinkErrors.byte (e : LinkErrors) : Byte :=
  bitsByte [e.laneCheck, e.laneContent, e.deskCheck, e.deskContent]

/-! ### The fault cause set (R142) -/

/-- A cause's place in the set: absent, or present with its condition-ended flag. -/
def FaultCauses.get (f : FaultCauses) : FaultCause → Option Bool
  | .overdue => f.overdue
  | .jam => f.jam
  | .overflow => f.overflow
  | .overrun => f.overrun

/-- The set with one cause's place replaced. -/
def FaultCauses.set (f : FaultCauses) (c : FaultCause) (v : Option Bool) : FaultCauses :=
  match c with
  | .overdue => { f with overdue := v }
  | .jam => { f with jam := v }
  | .overflow => { f with overflow := v }
  | .overrun => { f with overrun := v }

/-- Whether no cause is in the set. -/
def FaultCauses.isEmpty (f : FaultCauses) : Bool :=
  f.overdue.isNone && f.jam.isNone && f.overflow.isNone && f.overrun.isNone

/-- A latch adds the cause with condition ended no, or sets its condition ended back to no (R142). -/
def FaultCauses.latch (f : FaultCauses) (c : FaultCause) : FaultCauses := f.set c (some false)

/-- The end of a cause's condition; no effect when the cause is not in the set (R142). -/
def FaultCauses.conditionEnds (f : FaultCauses) (c : FaultCause) : FaultCauses :=
  match f.get c with
  | some _ => f.set c (some true)
  | none => f

/-- The set after an acknowledgement that names a cause or not: a named cause whose condition has ended leaves (R146). -/
def FaultCauses.ackOne (f : FaultCauses) (c : FaultCause) (named : Bool) : FaultCauses :=
  if named && f.get c == some true then f.set c none else f

/-- The set after PAIR_ACK's causes byte, OVERDUE, JAM, OVERFLOW, OVERRUN from bit 0 (R146, R26). -/
def FaultCauses.ack (f : FaultCauses) (named : Byte) : FaultCauses :=
  (((f.ackOne .overdue (named.getLsbD 0)).ackOne .jam (named.getLsbD 1)).ackOne .overflow
    (named.getLsbD 2)).ackOne .overrun (named.getLsbD 3)

/-- The byte that names the causes in `before` and not in `after`. -/
def FaultCauses.removedByte (before after : FaultCauses) : Byte :=
  let gone (c : FaultCause) : Bool := (before.get c).isSome && (after.get c).isNone
  bitsByte [gone .overdue, gone .jam, gone .overflow, gone .overrun]

/-! ### Suspend causes (R154) -/

/-- Whether a session has no suspend cause. -/
def Session.noCause (x : Session) : Bool := !x.causeGate && !x.causeLogFull

/-- The suspend causes as sent: GATE, LOG_FULL (R154, R26). -/
def Session.causesByte (x : Session) : Byte := bitsByte [x.causeGate, x.causeLogFull]

/-- The state that a session's suspend causes give it: RUNNING with a cause becomes SUSPENDED, SUSPENDED with none
becomes RUNNING, the other states keep (R157, Table 9-1). -/
def Session.settleCauses (x : Session) : Session :=
  match x.state with
  | .running => if x.noCause then x else { x with state := .suspended }
  | .suspended => if x.noCause then { x with state := .running } else x
  | _ => x

end Sys2Proof.Machine
end

