-- ==== Sys2Proof/Machine/Operands.lean ====
section
/-! DEFINITION. Machine/Operands.lean: the operands of requests and the items of responses and notices: the numbers they may hold, the codes of named values, and their wire forms (R26, spec/01 section 1.7). -/

namespace Sys2Proof.Machine

/-! ### Numbers that name lanes, pairs, slots and tariffs -/

/-- The lane a number 1 to 32 names. -/
def laneOf (n : Nat) : Option Lane := if h : 1 ≤ n ∧ n ≤ 32 then some ⟨n - 1, by omega⟩ else none

/-- The pair a number 1 to 16 names. -/
def pairNumbered (n : Nat) : Option Pair := if h : 1 ≤ n ∧ n ≤ 16 then some ⟨n - 1, by omega⟩ else none

/-- The team slot a number 1 to 32 names. -/
def slotOf (n : Nat) : Option Slot := laneOf n

/-- The tariff a number 0 to 15 names. -/
def tariffOf (n : Nat) : Option TariffIndex := if h : n ≤ 15 then some ⟨n, by omega⟩ else none

/-- A lane's, pair's or slot's number, counted from 1. -/
def numberOf {n : Nat} (i : Fin n) : Nat := i.val + 1

/-- The pair that holds a lane: pair p holds lanes 2p-1 and 2p (spec/00, Numbering). -/
def pairOf (l : Lane) : Pair := ⟨l.val / 2, by omega⟩

/-- A pair's odd lane. -/
def oddLane (p : Pair) : Lane := ⟨2 * p.val, by omega⟩

/-- A pair's even lane. -/
def evenLane (p : Pair) : Lane := ⟨2 * p.val + 1, by omega⟩

/-- The other lane of a lane's pair (spec/00, Numbering). -/
def partner (l : Lane) : Lane := if l.val % 2 = 0 then evenLane (pairOf l) else oddLane (pairOf l)

/-- The lanes after a lane, upward, wrapping from 32 to 1, ending with the lane itself (R18, R55). -/
def lanesAfter (l : Lane) : List Lane :=
  allLanes.drop (l.val + 1) ++ allLanes.take (l.val + 1)

/-! ### Items on the wire (R26) -/

/-- A number in `k` bytes, most significant first. -/
def natBytes : Nat → Nat → List Byte
  | 0, _ => []
  | k + 1, n => natBytes k (n / 256) ++ [BitVec.ofNat 8 n]

/-- A number whose range lies within 0 to 255, and a code. -/
def u8 (n : Nat) : List Byte := [BitVec.ofNat 8 n]

/-- A number whose range passes 255 and lies within 0 to 65535. -/
def u16 (n : Nat) : List Byte := natBytes 2 n

/-- A clock value or pass time. -/
def clockBytes (n : Nat) : List Byte := natBytes 4 n

/-- An amount of money in minor units. -/
def moneyBytes (n : Nat) : List Byte := natBytes 6 n

/-- Yes or no. -/
def yesNo (b : Bool) : List Byte := [if b then 1 else 0]

/-- A pin pattern, the upper six bits zero (R25). -/
def pinBytes (p : Pins) : List Byte := bytes16 (p.setWidth 16)

/-- A number that goes below 0, in one byte, two's complement. -/
def signedByte (n : Int) : List Byte := [BitVec.ofInt 8 n]

/-- An item that is present in some states and absent in others. -/
def optBytes {α : Type} (f : α → List Byte) : Option α → List Byte
  | none => [0]
  | some x => 1 :: f x

/-- A list: the number of entries, then the entries. -/
def listBytes {α : Type} (f : α → List Byte) (xs : List α) : List Byte :=
  u8 xs.length ++ xs.flatMap f

/-- The pin pattern of a received 16-bit field, its upper six bits ignored (R25). -/
def pinsOfWord (w : BitVec 16) : Pins := w.setWidth 10

/-! ### Codes of named values -/

/-- OFF 1 to SERVICE 6, the places in R27's list. -/
def MachineState.code : MachineState → Nat
  | .off => 1 | .ready => 2 | .cycling => 3 | .stopping => 4 | .fault => 5 | .service => 6

/-- The part state codes of the response header (spec/01). -/
def PartState.code : PartState → Nat
  | .config => 0 | .run => 1 | .halting => 2 | .halted => 3

/-- OK 0, ABORTED 1 (spec/01, CYCLE_DONE). -/
def CycleResult.code : CycleResult → Nat
  | .ok => 0 | .aborted => 1

/-- NORMAL 0, SAFETY 1 (spec/01, MACHINE_FAULT). -/
def FaultClass.code : FaultClass → Nat
  | .normal => 0 | .safety => 1

/-- The cycle kind codes (spec/01, CYCLE). -/
def CycleKind.code : CycleKind → Nat
  | .fullRack => 1 | .respot _ => 2 | .pitClear => 3 | .deckOff => 4 | .warm => 5

/-- The pattern a kind carries, for RESPOT only. -/
def CycleKind.pattern? : CycleKind → Option Pins
  | .respot p => some p
  | _ => none

/-- INJECT 1, AUTO 2, BATCH 3: the places in R53's list. -/
def CycleClass.code : CycleClass → Nat
  | .inject => 1 | .auto => 2 | .batch => 3

/-- STANDBY 2, BOWLING 3, WAITING_CROSS 4: the places in R88's list, EMPTY being 1 (log 15). -/
def TeamState.code : TeamState → Nat
  | .standby _ => 2 | .bowling => 3 | .waitingCross => 4

/-- The standby reason codes: the places in R88's list, which R109 gives too. -/
def StandbyReason.code : StandbyReason → Nat
  | .new => 1 | .noSession => 2 | .noCredit => 3 | .locked => 4 | .logFull => 5 | .gameOver => 6 | .reset => 7

/-- The standby reason of a STANDBY team. -/
def TeamState.reason? : TeamState → Option StandbyReason
  | .standby r => some r
  | _ => none

/-- OPEN 1, PAIRED 2 (R110). -/
def PairMode.code : PairMode → Nat
  | .opened => 1 | .paired => 2

/-- STRIKE 1, SPARE 2, OPEN 3 (R90). -/
def Mark.code : Mark → Nat
  | .strike => 1 | .spare => 2 | .openFrame => 3

/-- CLOSED 1 to EXPIRED 5 (R154). -/
def SessionState.code : SessionState → Nat
  | .closed => 1 | .armed => 2 | .running => 3 | .suspended => 4 | .expired => 5

/-- ON_OPEN 1, ON_FIRST_BALL 2, ON_GAME_START 3 (R151). -/
def Trigger.code : Trigger → Nat
  | .onOpen => 1 | .onFirstBall => 2 | .onGameStart => 3

/-- NONE 1, MACHINE 2, MACHINE_AND_RETURN 3 (R151). -/
def Gate.code : Gate → Nat
  | .none => 1 | .machine => 2 | .machineAndReturn => 3

/-- OVERDUE 1, JAM 2, OVERFLOW 3, OVERRUN 4 (R132). -/
def FaultCause.code : FaultCause → Nat
  | .overdue => 1 | .jam => 2 | .overflow => 3 | .overrun => 4

/-- The refusal reason codes (spec/01). -/
def RefusalReason.code : RefusalReason → Nat
  | .unknownDest => 1 | .partHalted => 2 | .psNotInService => 3 | .partOwned => 4 | .queueFull => 5

/-- The lane notice codes (spec/01, LANE_NOTICE). -/
def ConsoleCode.code : ConsoleCode → Nat
  | .busy => 1 | .warn => 2 | .expired => 3 | .rackHigh => 4

/-- Asserted 1, released 2: the places in R192's list (log 15). -/
def levelCode (observed : Bool) : Nat := if observed then 1 else 2

/-- The notice kind codes (spec/01). -/
def Notice.kindCode : Notice → Nat
  | .ofLane .machineFault _ => 1
  | .ofLane .machineReady _ => 2
  | .ofLane .serviceReady _ => 3
  | .ofLane .lateDone _ => 4
  | .ofLane .stray _ => 5
  | .ofPair .pairFault _ => 6
  | .ofPair .rackHigh _ => 7
  | .ofPair .unmatched _ => 8
  | .ofLane .correction _ => 9
  | .ofLane .gameEnd _ => 10
  | .ofLane .warn _ => 11
  | .ofLane .expired _ => 12
  | .ofPart .logHigh => 13
  | .ofPart .batchLow => 14
  | .ofLane .forwardRefused _ => 15
  | .ofPart .forwardRefused => 15
  | .ofPart .linkError => 16
  | .ofPart .rxOverrun => 17
  | .ofPart .partState => 18

/-- The subject byte of a notice: lane number, pair number, or 0 for the part (spec/01). -/
def Notice.subjectCode : Notice → Nat
  | .ofLane _ l => numberOf l
  | .ofPair _ p => numberOf p
  | .ofPart _ => 0

/-- The role numbered 0 to 3 (spec/01). -/
def roleIndex : Role → Fin 4
  | .ps => 0 | .fl => 1 | .br => 2 | .cn => 3

/-- The role a DISPOSITION_LOAD field names. -/
def roleOf (n : Nat) : Option Role :=
  match n with
  | 0 => some .ps | 1 => some .fl | 2 => some .br | 3 => some .cn | _ => none

/-- The action a DISPOSITION_LOAD field names (spec/01: CONSUME 0, CONSUME_COPY 1, FORWARD 2, DROP 3). -/
def dispositionOf (n : Nat) : Option Disposition :=
  match n with
  | 0 => some .consume | 1 => some .consumeCopy | 2 => some .forward | 3 => some .drop | _ => none

/-- The class a class-rank byte names. -/
def classOf (n : Nat) : Option CycleClass :=
  match n with
  | 1 => some .inject | 2 => some .auto | 3 => some .batch | _ => none

/-- The kind an INJECT names, with its pattern for RESPOT (R56). -/
def injectKindOf (n : Nat) (pattern : BitVec 16) : Option CycleKind :=
  match n with
  | 1 => some .fullRack | 2 => some (.respot (pinsOfWord pattern)) | 3 => some .pitClear | _ => none

/-- The kind a BATCH_ADD names, coded as the CYCLE frame codes it (R59, log 15). -/
def batchKindOf (n : Nat) : Option CycleKind :=
  match n with
  | 1 => some .fullRack | 4 => some .deckOff | 5 => some .warm | _ => none

/-- The mode a PAIR_MODE names. -/
def pairModeOf (n : Nat) : Option PairMode :=
  match n with
  | 1 => some .opened | 2 => some .paired | _ => none

/-- The trigger a TARIFF_LOAD names. -/
def triggerOf (n : Nat) : Option Trigger :=
  match n with
  | 1 => some .onOpen | 2 => some .onFirstBall | 3 => some .onGameStart | _ => none

/-- The gate a TARIFF_LOAD names. -/
def gateOf (n : Nat) : Option Gate :=
  match n with
  | 1 => some .none | 2 => some .machine | 3 => some .machineAndReturn | _ => none

/-- The flag a field with the values 0 and 1 holds. -/
def flagOf (b : Byte) : Bool := b == 1

/-- Whether a field is neither 0 nor 1. -/
def notFlag (b : Byte) : Bool := decide (1 < b.toNat)

/-- An address field: 0 stands for an absent address (R2, R3). -/
def addressOf (b : Byte) : Option Byte := if b = 0 then none else some b

/-! ### Records on the wire: their fields in the order of the rule that defines them (R26) -/

/-- A cycle in flight (R27). -/
def Cycle.bytes (c : Cycle) : List Byte :=
  [c.tag] ++ u8 c.kind.code ++ optBytes pinBytes c.kind.pattern? ++ u8 c.cls.code ++ yesNo c.fromBackup

/-- A fault record (R27). -/
def FaultRecord.bytes (f : FaultRecord) : List Byte :=
  [f.code] ++ u8 f.cls.code ++ yesNo f.nodeCleared ++ yesNo f.deskAcked

/-- A stray record (R27): frame kind, tag and result, pattern, machine state. -/
def StrayRecord.bytes (r : StrayRecord) : List Byte :=
  (match r.report with
    | .cycleDone tag result => u8 2 ++ [1, tag] ++ (1 :: u8 result.code) ++ [0]
    | .pinfall p => u8 1 ++ [0, 0] ++ (1 :: pinBytes p)
    | .machineReady => u8 4 ++ [0, 0, 0]) ++ u8 r.machine.code

/-- A late record (R27). -/
def LateRecord.bytes (r : LateRecord) : List Byte :=
  [r.tag] ++ optBytes (fun x => u8 x.code) r.result

/-- The deck with its validity. -/
def LaneMachine.deckBytes (m : LaneMachine) : List Byte := pinBytes m.deck ++ yesNo m.deckValid

/-- The content of the inject slot (R56). -/
def InjectRequest.bytes (r : InjectRequest) : List Byte :=
  u8 (numberOf r.lane) ++ u8 r.kind.code ++ optBytes pinBytes r.kind.pattern? ++ yesNo r.preempt ++
    yesNo r.bound ++ yesNo r.cancelled

/-- The cycle kind an AUTO request asks for. -/
def AutoRequest.kind : AutoRequest → CycleKind
  | .fullRack => .fullRack
  | .respot p => .respot p

/-- An AUTO entry (R54). -/
def AutoRequest.bytes (a : AutoRequest) : List Byte := u8 a.kind.code ++ optBytes pinBytes a.kind.pattern?

/-- A back-up's class of origin, AUTO or BATCH (R63): AUTO 1, BATCH 2, the places in that list (R26). INJECT is in no list of
origins, since an aborted INJECT cycle is never kept (R69), and is given 0 (log 20). -/
def originCode : CycleClass → Nat
  | .inject => 0 | .auto => 1 | .batch => 2

/-- A back-up (R63). -/
def Backup.bytes (b : Backup) : List Byte :=
  u8 b.kind.code ++ optBytes pinBytes b.kind.pattern? ++ u8 (originCode b.origin)

/-- A delivery record with its present fields: NONE 1, LIVE 2, DEAD 3 (R74). -/
def deliveryBytes (d : Option Delivery) : List Byte :=
  u8 (match d with
    | none => 1
    | some x => if x.live then 2 else 3) ++
    optBytes u16 (d.map (·.speed)) ++ optBytes pinBytes (d.map (·.before)) ++ optBytes yesNo (d.map (·.fouled))

/-- A ball record (R81). -/
def Ball.bytes (b : Ball) : List Byte :=
  u8 b.pins ++ pinBytes b.after ++ yesNo b.foul ++ yesNo b.unseen ++ yesNo b.mismatch ++ yesNo b.amended ++
    optBytes u16 b.speed

/-- A frame record (R90, R94): the ball count, the ball records, and the mark, score and total where present. -/
def FrameRecord.bytes (f : FrameRecord) : List Byte :=
  listBytes Ball.bytes f.balls ++ optBytes (fun m => u8 m.code) f.mark ++ optBytes u8 f.score ++
    optBytes u16 f.cumulative

/-- A game totals entry (R89). -/
def GameTotal.bytes (t : GameTotal) : List Byte := u8 t.game ++ u16 t.total

/-- A name tag (R26). -/
def nameTagBytes (name : List Byte) : List Byte := u8 name.length ++ name

/-- A bowler's record as TEAM_READ returns it (R94). -/
def Bowler.bytes (b : Bowler) : List Byte :=
  nameTagBytes b.name ++ listBytes GameTotal.bytes b.totals ++ b.frames.toList.flatMap FrameRecord.bytes

/-- An amendment reservation (R125). -/
def Reservation.bytes (r : Reservation) : List Byte := u8 r.bowler ++ u8 r.frame

/-- The content of a correction slot (R120). -/
def Correction.bytes (c : Correction) : List Byte :=
  u8 (numberOf c.team) ++ u8 c.bowler ++ u8 c.frame ++ u8 c.reason

/-- A transit entry (R132). -/
def Transit.bytes (t : Transit) : List Byte := u8 (numberOf t.lane) ++ clockBytes t.passTime

/-- The fault cause set, every member with its condition-ended flag (R145). The members stand as OVERDUE, JAM, OVERFLOW, OVERRUN,
whatever the order in which they were latched: R145 gives a set and no order (log 28). -/
def FaultCauses.bytes (f : FaultCauses) : List Byte :=
  listBytes (fun (m : Nat × Bool) => u8 m.1 ++ yesNo m.2)
    ([FaultCause.overdue, .jam, .overflow, .overrun].filterMap fun c => (f.get c).map fun ended => (c.code, ended))

/-- A tariff as loaded (R151): basis PER_GAME 1 or PER_TIME 2, its bands, and the timed terms where present. -/
def Tariff.bytes (t : Tariff) : List Byte :=
  u8 (if t.timed.isSome then 2 else 1) ++ listBytes (fun (b : Band) => u16 b.start ++ u16 b.price) t.bands ++
    optBytes (fun x => u8 x.trigger.code) t.timed ++ optBytes (fun x => u8 x.gate.code) t.timed ++
    optBytes (fun x => u8 x.warn) t.timed ++ optBytes (fun x => u8 x.rounding) t.timed

/-- A charge record's kind code (spec/01): GAME 1, TIME 2, CLOSE 3. -/
def ChargeBody.code : ChargeBody → Nat
  | .game .. => 1 | .time .. => 2 | .close .. => 3

/-- A charge record's amount, a CLOSE record's total. -/
def ChargeBody.amount : ChargeBody → BitVec 48
  | .game _ _ _ _ a => a
  | .time _ _ _ a => a
  | .close _ _ a _ => a

/-- A charge record as returned by CHARGE_FETCH, 22 bytes (spec/01). -/
def LogRecord.bytes (r : LogRecord) : List Byte :=
  bytes16 r.seq ++ u8 r.charge.body.code ++ u8 (numberOf r.charge.lane) ++ bytes16 r.charge.session ++
    clockBytes r.charge.stamp ++
    (match r.charge.body with
      | .game slot game bowlers price amount => u8 slot ++ u8 game ++ u16 bowlers ++ u16 price ++ moneyBytes amount.toNat
      | .time band minutes price amount => u8 band ++ u8 0 ++ u16 minutes ++ u16 price ++ moneyBytes amount.toNat
      | .close games minutes amount part => yesNo part ++ u8 0 ++ u16 games ++ u16 minutes ++ moneyBytes amount.toNat)

/-- The parameter set in R183's order. -/
def Params.bytes (p : Params) : List Byte :=
  u8 p.slotBudget ++ p.ranks.flatMap (fun c => u8 c.code) ++ u8 p.batchLow ++ u8 p.cycleTimeout ++
    u8 p.returnTimeout ++ u16 p.logHigh ++ yesNo p.safetyHalts

/-- The drive cause: DESK 1, or SAFETY 2 with its lane (R192, log 15). -/
def DriveCause.bytes : DriveCause → List Byte
  | .desk => u8 1 ++ [0]
  | .safety l => u8 2 ++ (1 :: u8 (numberOf l))

/-- The controller as STATUS and PART_STATE carry it: level, drive flag, drive cause, resume requested (R182, R191). -/
def HaltLine.bytes (h : HaltLine) : List Byte :=
  u8 (levelCode h.observed) ++ yesNo h.drive ++ optBytes DriveCause.bytes h.cause ++ yesNo h.resumeRequested

end Sys2Proof.Machine
end

