-- ==== Sys2Proof/Machine/Ops.lean ====
section
/-! DEFINITION. Machine/Ops.lean: the named operations over the state: reading it, owing and taking events, raising and withdrawing notices, marks and console traffic, the change of a lane machine record with its events, holds, and the taking of a management request. -/

namespace Sys2Proof.Machine

/-! ### Reading the state -/

/-- A lane's machine record (R27). -/
def State.machine (s : State) (l : Lane) : LaneMachine := s.psv.at l

/-- A pair's record (R132). -/
def State.pair (s : State) (p : Pair) : PairRecord := s.brm.at p

/-- A lane's session record (R154). -/
def State.session (s : State) (l : Lane) : Session := s.blu.sessions.at l

/-- A team context, none when EMPTY (R88). -/
def State.team (s : State) (k : Slot) : Option Team := s.sce.teams.at k

/-- A lane's delivery record, none when NONE (R74). -/
def State.delivery (s : State) (l : Lane) : Option Delivery := s.sce.deliveries.at l

/-- A lane's correction slot (R120). -/
def State.correction (s : State) (l : Lane) : Option Correction := s.sce.corrections.at l

/-- A pair's mode (R110). -/
def State.mode (s : State) (p : Pair) : PairMode := s.sce.modes.at p

/-- A lane's entry of the AUTO pending set (R54). -/
def State.auto (s : State) (l : Lane) : Option AutoRequest := s.cdp.auto.at l

/-- A lane's back-up (R63). -/
def State.backup (s : State) (l : Lane) : Option Backup := s.cdp.backups.at l

/-- A lane entry of the Lane Map (R1). -/
def State.laneEntry (s : State) (l : Lane) : LaneEntry := s.frr.lanes.at l

/-- A pair entry of the Lane Map (R1). -/
def State.pairEntry (s : State) (p : Pair) : PairEntry := s.frr.pairs.at p

/-- Whether a lane is enabled (R1). -/
def State.enabled (s : State) (l : Lane) : Bool := (s.laneEntry l).enabled

/-- Whether a pair is enabled: at least one of its lanes is (R1). -/
def State.pairEnabled (s : State) (p : Pair) : Bool := s.enabled (oddLane p) || s.enabled (evenLane p)

/-- A tariff, none when not loaded (R151). -/
def State.tariff (s : State) (i : TariffIndex) : Option Tariff := s.blu.tariffs.at i

/-- A lane's hold set (R48). -/
def State.holds (s : State) (l : Lane) : HoldSet := (s.machine l).holds

/-- The part state (R182). -/
def State.part (s : State) : PartState := s.mrp.part

/-- Whether the part is in CONFIG. -/
def State.inConfig (s : State) : Bool := s.part == .config

/-- Whether the part is HALTING or HALTED. -/
def State.inHalt (s : State) : Bool := s.part == .halting || s.part == .halted

/-- Whether a machine is CYCLING or STOPPING. -/
def MachineState.moving (m : MachineState) : Bool := m == .cycling || m == .stopping

/-- Slots in use: the number of lanes whose machine is CYCLING or STOPPING (R52). -/
def State.slotsInUse (s : State) : Nat := allLanes.countP fun l => (s.machine l).state.moving

/-- The slot of the team seated on a lane (R88). -/
def State.seatedSlot (s : State) (l : Lane) : Option Slot :=
  allSlots.find? fun k => match s.team k with
    | some t => t.seated == l
    | none => false

/-- The team seated on a lane, with its slot. -/
def State.seatedTeam (s : State) (l : Lane) : Option (Slot × Team) :=
  match s.seatedSlot l with
  | some k => (s.team k).map fun t => (k, t)
  | none => none

/-- Whether a team context is homed on a lane, whatever lane it is seated on (R167). -/
def State.homesTeam (s : State) (l : Lane) : Bool :=
  allSlots.any fun k => match s.team k with
    | some t => t.home == l
    | none => false

/-! ### Doing something for every lane or pair, in ascending order -/

/-- One operation for every lane, in ascending order. -/
def forLanes (f : Lane → State → State) (s : State) : State := allLanes.foldl (fun s l => f l s) s

/-- One operation for every pair, in ascending order. -/
def forPairs (f : Pair → State → State) (s : State) : State := allPairs.foldl (fun s p => f p s) s

/-! ### Events the blocks owe each other (log 2) -/

/-- Events sent to blocks, to be taken later as events of their own (R8, R28). -/
def oweAll (cs : List Instr) (s : State) : State := { s with owed := s.owed ++ cs }

/-- One event sent to a block. -/
def owe (c : Instr) (s : State) : State := oweAll [c] s

/-- The taking of an event that was owed; an event that was not owed leaves the list unchanged. -/
def take (c : Instr) (s : State) : State := { s with owed := s.owed.erase c }

/-! ### Notices (R20 to R23) -/

/-- The pending notice list after a raise (R20): an entry already there keeps its place. -/
def noticesRaised (n : Notice) (ns : List Notice) : List Notice := if n ∈ ns then ns else ns ++ [n]

/-- A raise of a notice (R20). -/
def raise (n : Notice) (s : State) : State :=
  { s with dli := { s.dli with notices := noticesRaised n s.dli.notices } }

/-- A withdrawal of a notice (R22). -/
def withdraw (n : Notice) (s : State) : State :=
  { s with dli := { s.dli with notices := s.dli.notices.erase n } }

/-- A raise with a lane as subject. -/
def raiseLane (k : LaneNoticeKind) (l : Lane) (s : State) : State := raise (.ofLane k l) s

/-- A raise with a pair as subject. -/
def raisePair (k : PairNoticeKind) (p : Pair) (s : State) : State := raise (.ofPair k p) s

/-- A raise with the part as subject. -/
def raisePart (k : PartNoticeKind) (s : State) : State := raise (.ofPart k) s

/-- A withdrawal with a lane as subject. -/
def withdrawLane (k : LaneNoticeKind) (l : Lane) (s : State) : State := withdraw (.ofLane k l) s

/-- A withdrawal with a pair as subject. -/
def withdrawPair (k : PairNoticeKind) (p : Pair) (s : State) : State := withdraw (.ofPair k p) s

/-- A withdrawal with the part as subject. -/
def withdrawPart (k : PartNoticeKind) (s : State) : State := withdraw (.ofPart k) s

/-- A detection adds its member to the link error set and raises LINK_ERROR (R23). -/
def linkError (e : LinkError) (s : State) : State :=
  raisePart .linkError { s with dli := { s.dli with linkErrors := s.dli.linkErrors.add e } }

/-! ### The desk transmit queue (R19) -/

/-- A frame placed at the end of the desk transmit queue. -/
def placeDesk (f : DeskFrame) (s : State) : State := { s with dli := { s.dli with tx := s.dli.tx ++ [f] } }

/-- Whether LANE copies and notices may enter the transmit queue (R19). -/
def State.transmitOpen (s : State) : Bool := decide (s.dli.tx.length < Config.transmitOpenBelow)

/-- The LANE frame composed from an upstream frame (R11). -/
def laneCopy (f : LaneFrame) : DeskFrame := ⟨f.addr, 1, f.kind :: f.payload⟩

/-- The offer of a LANE copy, dropped when the queue holds 56 frames or more (R11, R19). -/
def offerCopy (f : LaneFrame) (s : State) : State := if s.transmitOpen then placeDesk (laneCopy f) s else s

/-- The number of MGMT_RSP frames in the transmit queue (R13). -/
def State.responsesQueued (s : State) : Nat := s.dli.tx.countP fun f => f.kind == 3

/-! ### Marks and console traffic (R16, R17) -/

/-- The Lane Link Interface's state replaced. -/
def setLink (x : LaneLink) (s : State) : State := { s with lli := x }

/-- A STOP mark set for a lane with the tag it stops (R16, R33); a mark already set is unchanged and keeps its tag (R16). -/
def markStop (l : Lane) (tag : Byte) (s : State) : State :=
  setLink { s.lli with stopMarks := s.lli.stopMarks.put l (some ((s.lli.stopMarks.at l).getD tag)) } s

/-- A lane's STOP mark cleared. -/
def clearStop (l : Lane) (s : State) : State :=
  setLink { s.lli with stopMarks := s.lli.stopMarks.put l none } s

/-- The CYCLE list with an entry added: at the end, or in place of the lane's entry still listed (R16). -/
def cycleListed (l : Lane) (tag : Byte) (xs : List (Lane × Byte)) : List (Lane × Byte) :=
  if xs.any (fun e => e.1 == l) then xs.map (fun e => if e.1 == l then (l, tag) else e) else xs ++ [(l, tag)]

/-- A CYCLE entry added for a grant (R16, R31). -/
def listCycle (l : Lane) (tag : Byte) (s : State) : State :=
  setLink { s.lli with cycleList := cycleListed l tag s.lli.cycleList } s

/-- A LIFT mark set or cleared (R16). -/
def setLiftMark (p : Pair) (b : Bool) (s : State) : State :=
  setLink { s.lli with liftMarks := s.lli.liftMarks.put p b } s

/-- A PROBE mark set or cleared (R16). -/
def setProbeMark (l : Lane) (b : Bool) (s : State) : State :=
  setLink { s.lli with probeMarks := s.lli.probeMarks.put l b } s

/-- A lane's console traffic replaced (R17). -/
def setConsole (l : Lane) (c : Console) (s : State) : State :=
  setLink { s.lli with console := s.lli.console.put l c } s

/-- A lane's display marked stale (R17). -/
def markStale (l : Lane) (s : State) : State :=
  setConsole l { s.lli.console.at l with stale := true } s

/-- A lane notice code raised on a lane's console; a code already in the list leaves it unchanged (R17). -/
def raiseConsole (c : ConsoleCode) (l : Lane) (s : State) : State :=
  let t := s.lli.console.at l
  setConsole l { t with notices := if c ∈ t.notices then t.notices else t.notices ++ [c] } s

/-! ### The lane machine record (R27, R28) -/

/-- Whether a machine is in FAULT or SERVICE. -/
def MachineState.faultOrService (m : MachineState) : Bool := m == .fault || m == .service

/-- The events that a change of a lane machine record sends to the other blocks (R28): the entry into READY with the
deck at that moment, the change of READY, the change of the hold set, the gate's evaluation, and the exit from
CYCLING and STOPPING. The order in which they are owed is the model's (log 22). -/
def changeEvents (l : Lane) (old new : LaneMachine) : List Instr :=
  (if old.state != .ready && new.state == .ready then [.readyEntry l new.deck new.deckValid] else []) ++
  (if (old.state == .ready) != (new.state == .ready) then [.readyChange l] else []) ++
  (if old.holds != new.holds then [.holdSetChange l] else []) ++
  (if (old.state != new.state && (old.state.faultOrService || new.state.faultOrService)) || old.holds != new.holds then
    [.gateEvaluation l] else []) ++
  (if old.state.moving && !new.state.moving then [.laneCycleExit l] else [])

/-- A lane machine record replaced, with no event of its own. -/
def storeMachine (l : Lane) (m : LaneMachine) (s : State) : State := { s with psv := s.psv.put l m }

/-- A change of a lane machine record: the record replaced and its events owed (R28). -/
def putMachine (l : Lane) (m : LaneMachine) (s : State) : State :=
  oweAll (changeEvents l (s.machine l) m) (storeMachine l m s)

/-- A hold cause claimed or released on a lane (R48). -/
def setHold (c : HoldCause) (present : Bool) (l : Lane) (s : State) : State :=
  putMachine l { s.machine l with holds := (s.holds l).set c present } s

/-- A hold cause claimed (R48). -/
def claim (c : HoldCause) (l : Lane) (s : State) : State := setHold c true l s

/-- A hold cause released (R48). -/
def release (c : HoldCause) (l : Lane) (s : State) : State := setHold c false l s

/-! ### The other blocks' records replaced -/

/-- The Cycle Dispatcher's state replaced. -/
def setDispatcher (x : Dispatcher) (s : State) : State := { s with cdp := x }

/-- A lane's AUTO entry replaced (R54). -/
def setAuto (l : Lane) (a : Option AutoRequest) (s : State) : State :=
  setDispatcher { s.cdp with auto := s.cdp.auto.put l a } s

/-- A lane's back-up replaced (R63). -/
def setBackup (l : Lane) (b : Option Backup) (s : State) : State :=
  setDispatcher { s.cdp with backups := s.cdp.backups.put l b } s

/-- The inject slot replaced (R56). -/
def setInject (r : Option InjectRequest) (s : State) : State := setDispatcher { s.cdp with inject := r } s

/-- A lane's discard-on-abort flag replaced (R69, R73). -/
def setDiscard (l : Lane) (b : Bool) (s : State) : State :=
  setDispatcher { s.cdp with discardOnAbort := s.cdp.discardOnAbort.put l b } s

/-- A lane's delivery record replaced (R74). -/
def setDelivery (l : Lane) (d : Option Delivery) (s : State) : State :=
  { s with sce := { s.sce with deliveries := s.sce.deliveries.put l d } }

/-- A team context replaced (R88). -/
def setTeam (k : Slot) (t : Option Team) (s : State) : State :=
  { s with sce := { s.sce with teams := s.sce.teams.put k t } }

/-- A pair's mode replaced (R110). -/
def setMode (p : Pair) (m : PairMode) (s : State) : State :=
  { s with sce := { s.sce with modes := s.sce.modes.put p m } }

/-- A lane's correction slot replaced (R120). -/
def setCorrection (l : Lane) (c : Option Correction) (s : State) : State :=
  { s with sce := { s.sce with corrections := s.sce.corrections.put l c } }

/-- A pair record replaced (R132). -/
def putPair (p : Pair) (r : PairRecord) (s : State) : State := { s with brm := s.brm.put p r }

/-- A session record replaced (R154). -/
def putSession (l : Lane) (x : Session) (s : State) : State :=
  { s with blu := { s.blu with sessions := s.blu.sessions.put l x } }

/-- The part state replaced (R182). -/
def setPart (x : PartState) (s : State) : State := { s with mrp := { s.mrp with part := x } }

/-- The Halt Line controller replaced (R192). -/
def setHalt (x : HaltLine) (s : State) : State := { s with mrp := { s.mrp with halt := x } }

/-! ### Taking a management request (R13, R181) -/

/-- The result codes of a response (R181). -/
inductive Result where
  | ok | badRequest | badValue | badState | inUse | busy | full | logFull | noReservation | halted
  deriving DecidableEq, Repr

/-- The result codes on the wire (spec/01, response header). -/
def Result.code : Result → Nat
  | .ok => 0 | .badRequest => 1 | .badValue => 2 | .badState => 3 | .inUse => 4 | .busy => 5 | .full => 6
  | .logFull => 7 | .noReservation => 8 | .halted => 9

/-- A condition table: its rows read from the top, the first whose condition holds gives the result (spec/00, Condition tables). -/
def firstRow : List (Bool × Result) → Option Result
  | [] => none
  | (c, r) :: rows => if c then some r else firstRow rows

/-- The frame at the head of the desk receive queue taken, when it is the frame the command comes from (R13, log 6). -/
def takeHead (c : Instr) (s : State) : State :=
  match s.dli.rx with
  | f :: rest => if commandOfFrame f = c then { s with dli := { s.dli with rx := rest } } else s
  | [] => s

/-- The response frame: tag and code copied, the result, the part state as it stands, the response fields (R181). -/
def responseFrame (tag : BitVec 16) (code : Nat) (result : Nat) (part : PartState) (fields : List Byte) : DeskFrame :=
  ⟨0, 3, bytes16 tag ++ u8 code ++ u8 result ++ u8 part.code ++ fields⟩

/-- The response composed at the end of the event and placed in the desk transmit queue (R181). -/
def respond (tag : BitVec 16) (code : Nat) (r : Result) (fields : List Byte) (s : State) : State :=
  placeDesk (responseFrame tag code r.code s.part fields) s

/-- A request checked against its condition table and, when no row applies, given its effect; the effect answers the state
and the response fields (R181). A refused request changes no state. -/
def judge (rows : List (Bool × Result)) (effect : State → State × List Byte) (s : State) :
    State × Result × List Byte :=
  match firstRow rows with
  | some r => (s, r, [])
  | none => ((effect s).1, .ok, (effect s).2)

/-- The taking of a request as one event (R13): its frame leaves the head of the receive queue, it is judged, and its one
response is placed. With 8 responses already queued the request is not taken and nothing changes (R13, log 6). -/
def answer (c : Instr) (tag : BitVec 16) (code : Nat) (run : State → State × Result × List Byte) (s : State) :
    State :=
  if s.responsesQueued < Config.responsePlaces then
    let r := run (takeHead c s)
    respond tag code r.2.1 r.2.2 r.1
  else s

/-- A field that must name a lane names none (the row "lane is outside 1 to 32"). -/
def noLane (b : Byte) : Bool := (laneOf b.toNat).isNone

/-- The lane a checked field names. -/
def laneAt (b : Byte) : Lane := (laneOf b.toNat).getD 0

/-- A field that must name a pair names none. -/
def noPair (b : Byte) : Bool := (pairNumbered b.toNat).isNone

/-- The pair a checked field names. -/
def pairAt (b : Byte) : Pair := (pairNumbered b.toNat).getD 0

/-- A field that must name a team slot names none. -/
def noSlot (b : Byte) : Bool := (slotOf b.toNat).isNone

/-- The slot a checked field names. -/
def slotAt (b : Byte) : Slot := (slotOf b.toNat).getD 0

/-- The tariff a checked field names. -/
def tariffAt (b : Byte) : TariffIndex := (tariffOf b.toNat).getD 0

/-- Whether a frame delivered for a lane is acted on: the part is not in CONFIG and the lane is enabled (R6, R45, log 5). -/
def State.actsOnLane (s : State) (l : Lane) : Bool := !s.inConfig && s.enabled l

/-- Whether a frame delivered for a pair is acted on: the part is not in CONFIG and the pair is enabled (R6, log 5). -/
def State.actsOnPair (s : State) (p : Pair) : Bool := !s.inConfig && s.pairEnabled p

end Sys2Proof.Machine
end

