-- ==== Sys2Proof/Machine/ReturnOps.lean ====
section
/-! DEFINITION. Machine/ReturnOps.lean: the Ball Return Monitor's shared operations: projected free places, the lift command, the overdue timer, the latching of causes and the claim of PAIR. -/

namespace Sys2Proof.Machine

/-- The projected free places: the capacity less the rack count less the number of transit entries (R132). -/
def PairRecord.free (r : PairRecord) : Int := (r.capacity : Int) - r.rack - r.transit.length

/-- The lift command the three conditions give: RUN when the part is RUN, the pair is enabled and the rack is below capacity (R139). -/
def liftCommand (p : Pair) (s : State) : Bool :=
  s.part == .run && s.pairEnabled p && decide ((s.pair p).rack < (s.pair p).capacity)

/-- The lift command evaluated: a different command replaces the one held and sets a LIFT mark (R139). -/
def evalLift (p : Pair) (s : State) : State :=
  if liftCommand p s == (s.pair p).lift then s
  else setLiftMark p true (putPair p { s.pair p with lift := liftCommand p s } s)

/-- The overdue timer after an evaluation (R140). `changed` says whether the oldest entry has changed in the event. -/
def PairRecord.evaluatedTimer (r : PairRecord) (changed : Bool) (timeout : Nat) : Option Nat :=
  if r.lift && !r.transit.isEmpty && !r.oldestOverdue then
    match r.timer with
    | none => some timeout
    | some t => if changed then some timeout else some t
  else none

/-- The overdue timer evaluated at the end of an event (R140). -/
def evalTimer (p : Pair) (changed : Bool) (s : State) : State :=
  putPair p { s.pair p with timer := (s.pair p).evaluatedTimer changed s.mrp.params.returnTimeout } s

/-- PAIR claimed on both lanes of a pair (R144), the odd lane first (log 29). -/
def claimPair (p : Pair) (s : State) : State := claim .pair (evenLane p) (claim .pair (oddLane p) s)

/-- PAIR released on both lanes of a pair (R144), the odd lane first (log 29). -/
def releasePair (p : Pair) (s : State) : State := release .pair (evenLane p) (release .pair (oddLane p) s)

/-- A cause latched: added or its condition set back to not ended, PAIR_FAULT raised, and PAIR claimed when the set was empty
and the part is not in CONFIG (R142, R144). -/
def latch (c : FaultCause) (p : Pair) (s : State) : State :=
  let s1 := raisePair .pairFault p (putPair p { s.pair p with causes := (s.pair p).causes.latch c } s)
  if (s.pair p).causes.isEmpty && !s.inConfig then claimPair p s1 else s1

/-- RACK_HIGH raised for the pair and on the consoles of both lanes (R138). -/
def raiseRackHigh (p : Pair) (s : State) : State :=
  raiseConsole .rackHigh (evenLane p) (raiseConsole .rackHigh (oddLane p) (raisePair .rackHigh p s))

/-- R138 at the end of an event: `before` is the projected free places before it. -/
def applyFreePlaces (p : Pair) (before : Int) (s : State) : State :=
  let level : Int := (s.pair p).almostFull
  let after := (s.pair p).free
  if before > level && after ≤ level then raiseRackHigh p s
  else if before ≤ level && after > level then withdrawPair .rackHigh p s
  else s

/-- The record without its oldest transit entry: a mark of overdue goes with it and ends OVERDUE's condition, and with fewer
than 8 entries left OVERFLOW's condition ends (R134 step 1). -/
def PairRecord.oldestRemoved (r : PairRecord) : PairRecord :=
  let causes1 := if r.oldestOverdue then r.causes.conditionEnds .overdue else r.causes
  let rest := r.transit.tail
  { r with
    transit := rest
    oldestOverdue := false
    causes := if rest.length < Config.transitPlaces then causes1.conditionEnds .overflow else causes1 }

/-- The record with OVERRUN's condition ended when the rack is below the capacity (R136, R137, R149). -/
def PairRecord.overrunRelieved (r : PairRecord) : PairRecord :=
  if r.rack < r.capacity then { r with causes := r.causes.conditionEnds .overrun } else r

/-- The lift and the overdue timer of a pair evaluated, the oldest entry unchanged. -/
def evalLiftTimer (p : Pair) (s : State) : State := evalTimer p false (evalLift p s)

end Sys2Proof.Machine
end

