-- ==== Sys2Proof/Machine/BallReturn.lean ====
section
/-! DEFINITION. Machine/BallReturn.lean: the meanings of the ball return commands (spec/08): BALL_PASS at the Ball Return Monitor, BALL_ARRIVED, BALL_TAKEN, LIFT_JAM, LIFT_CLEAR, OVERDUE_TIMER_EXPIRY, TRANSIT_DISCARD, RACK_SET, PAIR_ACK, PAIR_STATUS. -/

namespace Sys2Proof.Machine

/-- A transit entry appended, or OVERFLOW latched at 8 entries (R133). -/
def passBall (l : Lane) (s : State) : State :=
  let p := pairOf l
  let r := s.pair p
  if r.transit.length < Config.transitPlaces then
    applyFreePlaces p r.free
      (evalTimer p r.transit.isEmpty (putPair p { r with transit := r.transit ++ [⟨l, s.mrp.clock⟩] } s))
  else latch .overflow p s

/-- R133. -/
def ballPassReturnEffect (l : Lane) (s : State) : State := if s.actsOnLane l then passBall l s else s

/-- BALL_PASS at the Ball Return Monitor (R133). -/
def execBallPassReturn (l : Lane) (s : State) : Host.Outcome State Fault Refusal :=
  .next (ballPassReturnEffect l (take (.ballPassReturn l) s))

/-- The record with an unmatched arrival counted, up to 255 (R134, R147). -/
def PairRecord.unmatchedArrival (r : PairRecord) : PairRecord :=
  { r with unmatchedArrivals := min (r.unmatchedArrivals + 1) 255 }

/-- The record with an unmatched take counted, up to 255 (R136, R147). -/
def PairRecord.unmatchedTake (r : PairRecord) : PairRecord := { r with unmatchedTakes := min (r.unmatchedTakes + 1) 255 }

/-- R134 step 1: the oldest entry removed, or an unmatched arrival counted. -/
def arrivalQueue (p : Pair) (s : State) : State :=
  let r := s.pair p
  if r.transit.isEmpty then raisePair .unmatched p (putPair p r.unmatchedArrival s) else putPair p r.oldestRemoved s

/-- R134 step 2: the rack incremented, or OVERRUN latched at the capacity. -/
def arrivalRack (p : Pair) (s : State) : State :=
  let r := s.pair p
  if r.rack < r.capacity then putPair p { r with rack := r.rack + 1 } s else latch .overrun p s

/-- R134: the four steps in order; the oldest entry changes when the queue was not empty. -/
def ballArrivedEffect (p : Pair) (s : State) : State :=
  if s.actsOnPair p then
    applyFreePlaces p (s.pair p).free
      (evalTimer p (!(s.pair p).transit.isEmpty) (evalLift p (arrivalRack p (arrivalQueue p s))))
  else s

/-- BALL_ARRIVED (R134). -/
def execBallArrived (p : Pair) (s : State) : Host.Outcome State Fault Refusal :=
  .next (ballArrivedEffect p (take (.ballArrived p) s))

/-- A ball taken from a rack that holds one (R136): the timer is evaluated when the lift turns to RUN. -/
def takeBall (p : Pair) (s : State) : State :=
  let r := s.pair p
  let s1 := evalLift p (putPair p { r with rack := r.rack - 1 }.overrunRelieved s)
  applyFreePlaces p r.free (if !r.lift && (s1.pair p).lift then evalTimer p false s1 else s1)

/-- R136. -/
def ballTakenEffect (p : Pair) (s : State) : State :=
  if s.actsOnPair p then
    if 0 < (s.pair p).rack then takeBall p s
    else raisePair .unmatched p (putPair p (s.pair p).unmatchedTake s)
  else s

/-- BALL_TAKEN (R136). -/
def execBallTaken (p : Pair) (s : State) : Host.Outcome State Fault Refusal :=
  .next (ballTakenEffect p (take (.ballTaken p) s))

/-- LIFT_JAM (R143): JAM latched. -/
def liftJamEffect (p : Pair) (s : State) : State := if s.actsOnPair p then latch .jam p s else s

/-- LIFT_JAM (R143). -/
def execLiftJam (p : Pair) (s : State) : Host.Outcome State Fault Refusal :=
  .next (liftJamEffect p (take (.liftJam p) s))

/-- LIFT_CLEAR (R143): JAM's condition ended when it is in the set. -/
def liftClearEffect (p : Pair) (s : State) : State :=
  if s.actsOnPair p then putPair p { s.pair p with causes := (s.pair p).causes.conditionEnds .jam } s else s

/-- LIFT_CLEAR (R143). -/
def execLiftClear (p : Pair) (s : State) : Host.Outcome State Fault Refusal :=
  .next (liftClearEffect p (take (.liftClear p) s))

/-- R141: oldest overdue becomes yes, OVERDUE is latched and the timer is left stopped; a pair whose timer is stopped has no
expiry. -/
def overdueEffect (p : Pair) (s : State) : State :=
  let r := s.pair p
  match r.timer with
  | some _ => latch .overdue p (putPair p { r with oldestOverdue := true, timer := none } s)
  | none => s

/-- OVERDUE_TIMER_EXPIRY (R141). -/
def execOverdueTimerExpiry (p : Pair) (s : State) : Host.Outcome State Fault Refusal :=
  .next (overdueEffect p (take (.overdueTimerExpiry p) s))

/-! ### Requests -/

/-- A lift command as sent: HALT 0, RUN 1 (spec/01, LIFT). -/
def liftBytes (run : Bool) : List Byte := yesNo run

/-- TRANSIT_DISCARD's effect (R135). -/
def transitDiscardEffect (p : Pair) (s : State) : State :=
  let r := s.pair p
  applyFreePlaces p r.free (evalTimer p true (evalLift p (putPair p r.oldestRemoved s)))

/-- TRANSIT_DISCARD (R135): the response carries the removed entry, whether it was marked overdue, and the entries left. -/
def execTransitDiscard (tag : BitVec 16) (pair : Byte) (s : State) : Host.Outcome State Fault Refusal :=
  .next (answer (.transitDiscard tag pair) tag 56
    (fun s => judge
      [(s.inConfig, .badState), (noPair pair, .badValue), ((s.pair (pairAt pair)).transit.isEmpty, .badState)]
      (fun s =>
        let r := s.pair (pairAt pair)
        (transitDiscardEffect (pairAt pair) s,
          (match r.transit with
            | e :: _ => e.bytes
            | [] => []) ++ yesNo r.oldestOverdue ++ u8 r.transit.tail.length)) s) s)

/-- RACK_SET's effect (R137). -/
def rackSetEffect (p : Pair) (count : Nat) (s : State) : State :=
  let r := s.pair p
  applyFreePlaces p r.free (evalLiftTimer p (putPair p { r with rack := count }.overrunRelieved s))

/-- RACK_SET (R137): the response carries the rack count, the lift command and the fault cause set. -/
def execRackSet (tag : BitVec 16) (pair count : Byte) (s : State) : Host.Outcome State Fault Refusal :=
  .next (answer (.rackSet tag pair count) tag 57
    (fun s => judge
      [(s.inConfig, .badState), (noPair pair, .badValue),
        (decide ((s.pair (pairAt pair)).capacity < count.toNat), .badValue)]
      (fun s =>
        let t := rackSetEffect (pairAt pair) count.toNat s
        let r := t.pair (pairAt pair)
        (t, u8 r.rack ++ liftBytes r.lift ++ r.causes.bytes)) s) s)

/-- PAIR_ACK's effect (R146): the named causes whose condition has ended leave; with the set left empty PAIR is released on both
lanes and PAIR_FAULT withdrawn. -/
def pairAckEffect (p : Pair) (causes : Byte) (s : State) : State :=
  let after := (s.pair p).causes.ack causes
  let s1 := putPair p { s.pair p with causes := after } s
  if after.isEmpty then withdrawPair .pairFault p (releasePair p s1) else s1

/-- PAIR_ACK (R146): the response carries the causes removed and the set after the request. -/
def execPairAck (tag : BitVec 16) (pair causes : Byte) (s : State) : Host.Outcome State Fault Refusal :=
  .next (answer (.pairAck tag pair causes) tag 58
    (fun s => judge
      [(s.inConfig, .badState), (noPair pair, .badValue),
        (causes == 0 || decide (15 < causes.toNat), .badValue)]
      (fun s =>
        let t := pairAckEffect (pairAt pair) causes s
        (t, [(s.pair (pairAt pair)).causes.removedByte (t.pair (pairAt pair)).causes] ++
          (t.pair (pairAt pair)).causes.bytes)) s) s)

/-- PAIR_STATUS's response (R148). -/
def pairStatusResponse (p : Pair) (s : State) : List Byte :=
  let r := s.pair p
  listBytes Transit.bytes r.transit ++ yesNo r.oldestOverdue ++ u8 r.rack ++ u8 r.capacity ++ u8 r.almostFull ++
    signedByte r.free ++ liftBytes r.lift ++ optBytes u8 r.timer ++ r.causes.bytes ++ u8 r.unmatchedArrivals ++
    u8 r.unmatchedTakes ++ yesNo (s.holds (oddLane p)).pair ++ yesNo (s.pairEnabled p)

/-- PAIR_STATUS (R148). -/
def execPairStatus (tag : BitVec 16) (pair : Byte) (s : State) : Host.Outcome State Fault Refusal :=
  .next (answer (.pairStatus tag pair) tag 59
    (fun s => judge [(noPair pair, .badValue)] (fun s => (s, pairStatusResponse (pairAt pair) s)) s) s)

end Sys2Proof.Machine
end

