-- ==== Sys2Proof/Machine/BillingOps.lean ====
section
/-! DEFINITION. Machine/BillingOps.lean: the Billing Unit's shared operations: bands and prices, the making and entry of charge records, owed records, the gate, metering, admission and the game charge. -/

namespace Sys2Proof.Machine

/-! ### Tariffs and bands (R151) -/

/-- The band in force at a clock value: the number of bands that have started by its minute, less one (R151; starts ascend and
the first is 0, so it is the band with the greatest start not above the minute). -/
def Tariff.bandAt (t : Tariff) (clock : Nat) : Nat := t.bands.countP (fun b => b.start ≤ clock / 60) - 1

/-- The price of a band. -/
def Tariff.price (t : Tariff) (band : Nat) : Nat := ((t.bands[band]?).map (·.price)).getD 0

/-- The tariff a lane's session names, none when it is not loaded. -/
def State.sessionTariff (s : State) (l : Lane) : Option Tariff := s.tariff (s.session l).tariff

/-- The timed terms of a lane's session: present for a PER_TIME tariff. -/
def State.terms (s : State) (l : Lane) : Option TimedTerms := (s.sessionTariff l).bind (·.timed)

/-- Whether a lane's session has a PER_GAME tariff. -/
def State.perGame (s : State) (l : Lane) : Bool :=
  match s.sessionTariff l with
  | some t => t.timed.isNone
  | none => false

/-- Whether a lane's session is CLOSED. -/
def State.sessionClosed (s : State) (l : Lane) : Bool := (s.session l).state == .closed

/-- Whether a lane's session is PER_TIME and not CLOSED. -/
def State.timedOpen (s : State) (l : Lane) : Bool := (s.terms l).isSome && !s.sessionClosed l

/-- A tariff is in use while a session that is not CLOSED names it (R151). -/
def State.tariffUsers (s : State) (i : TariffIndex) : Nat :=
  allLanes.countP fun l => !s.sessionClosed l && (s.session l).tariff == i

/-! ### Amounts (R154, log 11) -/

/-- Whether the sum of two 48-bit amounts fits 48 bits. -/
def amountFits (a b : BitVec 48) : Bool := decide (a.toNat + b.toNat < 2 ^ 48)

/-- The sum of two amounts; a free value when it does not fit 48 bits, which the manual leaves open (log 11). -/
def addAmount (draw : Nat) (a b : BitVec 48) : BitVec 48 :=
  if amountFits a b then a + b else Config.freeAmount draw

/-- The counter of free values moved on when a sum does not fit. -/
def drawUnless (fits : Bool) (s : State) : State := if fits then s else { s with draws := s.draws + 1 }

/-! ### Charge records (R158, R171, R173, R174) -/

/-- The log, the next sequence number and the fetch position replaced. -/
def setLog (log : List LogRecord) (next fetch : BitVec 16) (s : State) : State :=
  { s with blu := { s.blu with log := log, nextSeq := next, fetchPos := fetch } }

/-- The entry of a record at the newest end with the next sequence number (R171, R173); LOG_HIGH is raised when the held count
goes from below the log high level to it (R179). -/
def enterLog (c : Charge) (s : State) : State :=
  let s1 := setLog (s.blu.log ++ [⟨s.blu.nextSeq, c⟩]) (s.blu.nextSeq + 1) s.blu.fetchPos s
  if s.blu.log.length < s.mrp.params.logHigh && s.mrp.params.logHigh ≤ s.blu.log.length + 1 then
    raisePart .logHigh s1
  else s1

/-- A record combined into an owed record of its kind (R173). -/
def combineCharge (draw : Nat) (old new : Charge) : Charge :=
  match old.body, new.body with
  | .game _ _ b1 _ a1, .game _ _ b2 p2 a2 =>
    { old with stamp := new.stamp, body := .game 0 0 (b1 + b2) p2 (addAmount draw a1 a2) }
  | .time _ m1 _ a1, .time b2 m2 p2 a2 =>
    { old with stamp := new.stamp, body := .time b2 (m1 + m2) p2 (addAmount draw a1 a2) }
  | _, _ => old

/-- A record becomes the session's owed record: LOGFULL is claimed, a PER_TIME session gains the LOG_FULL suspend cause, and
LOG_HIGH is raised (R174). -/
def becomeOwed (l : Lane) (c : Charge) (s : State) : State :=
  let x := { s.session l with owed := some c }
  let x1 := if (s.terms l).isSome then Session.settleCauses { x with causeLogFull := true } else x
  raisePart .logHigh (claim .logfull l (putSession l x1 s))

/-- The amount a record adds to the accrued amount: a CLOSE record adds nothing (R158). -/
def ChargeBody.accrues : ChargeBody → BitVec 48
  | .close .. => 0
  | b => b.amount

/-- A record's amount added to the session's accrued amount in the event that makes it (R158). -/
def accrue (l : Lane) (amount : BitVec 48) (s : State) : State :=
  let x := s.session l
  drawUnless (amountFits x.accrued amount)
    (putSession l { x with accrued := addAmount s.draws x.accrued amount } s)

/-- A record made for a lane's session and handed to the charge log (R158, R173): it enters, becomes owed, or is combined. -/
def makeCharge (l : Lane) (body : ChargeBody) (s : State) : State :=
  let c : Charge := { session := (s.session l).id, lane := l, stamp := s.mrp.clock, body := body }
  let s1 := accrue l body.accrues s
  if s1.blu.log.length < Config.logPlaces then enterLog c s1
  else
    match (s1.session l).owed with
    | none => becomeOwed l c s1
    | some o =>
      drawUnless (amountFits o.body.amount c.body.amount)
        (putSession l { s1.session l with owed := some (combineCharge s1.draws o c) } s1)

/-- An owed record written into a free place of the log: LOGFULL released and the LOG_FULL suspend cause removed (R175). -/
def writeOwed (l : Lane) (s : State) : State :=
  match (s.session l).owed with
  | some c =>
    if s.blu.log.length < Config.logPlaces then
      let s1 := enterLog c s
      release .logfull l
        (putSession l (Session.settleCauses { s1.session l with owed := none, causeLogFull := false }) s1)
    else s
  | none => s

/-! ### Triggers and the gate (R156, R157) -/

/-- An ARMED session starts: seconds 0, RUNNING, or SUSPENDED when a suspend cause is present (R156). -/
def startSession (l : Lane) (s : State) : State :=
  let x := s.session l
  if x.state == .armed then putSession l (Session.settleCauses { x with state := .running, seconds := 0 }) s else s

/-- The gate condition of R157. -/
def gateCondition (g : Gate) (m : LaneMachine) : Bool :=
  match g with
  | .none => false
  | .machine => m.state.faultOrService || m.holds.halt
  | .machineAndReturn => m.state.faultOrService || m.holds.halt || m.holds.pair

/-- The gate evaluated for a lane whose session is PER_TIME and not CLOSED: GATE is added or removed (R157). -/
def evaluateGate (l : Lane) (s : State) : State :=
  match s.terms l with
  | some t =>
    if s.sessionClosed l then s
    else putSession l (Session.settleCauses { s.session l with causeGate := gateCondition t.gate (s.machine l) }) s
  | none => s

/-! ### Metering (R159 to R162) -/

/-- The segment closed: a TIME record is made from it and the segment emptied (R160). -/
def closeSegment (l : Lane) (s : State) : State :=
  match s.sessionTariff l with
  | some t =>
    let x := s.session l
    let band := x.segBand.getD 0
    makeCharge l (.time band x.segMinutes (t.price band) (BitVec.ofNat 48 x.segAmount))
      (putSession l { x with segMinutes := 0, segBand := none, segAmount := 0 } s)
  | none => s

/-- The band check: the segment is closed when it has minutes and the band in force is not its band (R159, R160). -/
def bandCheck (l : Lane) (s : State) : State :=
  match s.sessionTariff l with
  | some t =>
    if s.timedOpen l && decide (0 < (s.session l).segMinutes) &&
        (s.session l).segBand != some (t.bandAt s.mrp.clock) then
      closeSegment l s
    else s
  | none => s

/-- The session with one minute charged at the band in force, but for its credit (R159 step 2). -/
def Session.minuteCharged (x : Session) (band price : Nat) : Session :=
  { x with
    segMinutes := x.segMinutes + 1
    minutes := min (x.minutes + 1) 65535
    segBand := if x.segMinutes = 0 then some band else x.segBand
    segAmount := x.segAmount + price }

/-- A minute charged to a lane's session at the band in force, but for its credit. -/
def chargeMinute (l : Lane) (s : State) : State :=
  match s.sessionTariff l with
  | some t =>
    let band := t.bandAt s.mrp.clock
    putSession l ((s.session l).minuteCharged band (t.price band)) s
  | none => s

/-- The expiry of a session whose credit a minute brought to 0 (R162). -/
def expireSession (l : Lane) (s : State) : State :=
  let s1 := closeSegment l s
  raiseConsole .expired l (raiseLane .expired l
    (claim .credit l (putSession l { s1.session l with warned := true, state := .expired } s1)))

/-- The credit's part of a charged minute: it decreases by one, and the session expires or is warned (R159, R161, R162). -/
def spendMinute (l : Lane) (s : State) : State :=
  let x := s.session l
  match x.credit with
  | none => s
  | some c =>
    let s1 := putSession l { x with credit := some (c - 1) } s
    if c - 1 = 0 then expireSession l s1
    else
      match s.terms l with
      | some t =>
        if c - 1 ≤ t.warn && !x.warned then
          raiseConsole .warn l (raiseLane .warn l
            (putSession l { x with credit := some (c - 1), warned := true } s1))
        else s1
      | none => s1

/-- A segment that has reached 9999 minutes is closed (R159). -/
def closeFullSegment (l : Lane) (s : State) : State :=
  if (s.session l).segMinutes = 9999 then closeSegment l s else s

/-- One second of metering for a lane (R159): the band check, then the advance of a RUNNING session. -/
def meterSecond (l : Lane) (s : State) : State :=
  if s.timedOpen l then
    let s1 := bandCheck l s
    let x := s1.session l
    if x.state == .running then
      if x.seconds + 1 < 60 then putSession l { x with seconds := x.seconds + 1 } s1
      else closeFullSegment l (spendMinute l (chargeMinute l (putSession l { x with seconds := 0 } s1)))
    else s1
  else s

/-! ### Games (R95, R164 to R166) -/

/-- The Billing Unit's answer to an admission request: the first refusal of R95 that applies, or none. -/
def admissionRefusal (home : Lane) (size : Nat) (s : State) : Option StandbyReason :=
  let x := s.session home
  if x.state == .closed then some .noSession
  else if (s.holds home).logfull then some .logFull
  else
    match s.sessionTariff home with
    | none => none
    | some t =>
      match t.timed with
      | none =>
        match x.credit with
        | some c => if c < x.reserved + size then some .noCredit else none
        | none => none
      | some terms =>
        if x.state == .expired then some .noCredit
        else
          match x.credit with
          | some c => if c ≤ terms.warn then some .locked else none
          | none => none

/-- The Billing Unit's side of an admitted game (R164). -/
def admitOnSession (home : Lane) (size : Nat) (s : State) : State :=
  match s.sessionTariff home with
  | none => s
  | some t =>
    match t.timed with
    | none => putSession home { s.session home with reserved := (s.session home).reserved + size } s
    | some terms => if terms.trigger == .onGameStart then startSession home s else s

/-- The game charge (R165): on a PER_GAME session a GAME record is made and the bowler-games are consumed. -/
def chargeGame (home : Lane) (slot : Slot) (game size : Nat) (s : State) : State :=
  match s.sessionTariff home with
  | none => s
  | some t =>
    match t.timed with
    | some _ => s
    | none =>
      let price := t.price (t.bandAt s.mrp.clock)
      let s1 := makeCharge home
        (.game (numberOf slot) game size price (BitVec.ofNat 48 (size * price))) s
      let x := s1.session home
      putSession home
        { x with
          reserved := x.reserved - size
          credit := x.credit.map (· - size)
          games := min (x.games + 1) 65535 } s1

/-- The reservation return of a discarded game (R166). -/
def returnReservation (home : Lane) (size : Nat) (s : State) : State :=
  if s.perGame home then
    putSession home { s.session home with reserved := (s.session home).reserved - size } s
  else s

end Sys2Proof.Machine
end

