-- ==== Sys2Proof/Machine/ChargeLog.lean ====
section
/-! DEFINITION. Machine/ChargeLog.lean: the meanings of the charge log requests (spec/10): CHARGE_FETCH, CHARGE_SETTLE, CHARGE_REWIND. -/

namespace Sys2Proof.Machine

/-- The oldest held record's sequence number, or one past the newest when the log is empty (R172). -/
def State.oldestSeq (s : State) : BitVec 16 :=
  match s.blu.log with
  | r :: _ => r.seq
  | [] => s.blu.nextSeq

/-- The fetch offset: the number of held records before the fetch position (R172). -/
def State.fetchOffset (s : State) : Nat := (s.blu.fetchPos - s.oldestSeq).toNat

/-- The records a fetch of `n` returns (R176). -/
def fetched (n : Nat) (s : State) : List LogRecord := (s.blu.log.drop s.fetchOffset).take n

/-- CHARGE_FETCH's effect (R176): the fetch position moves past the records returned. -/
def chargeFetchEffect (n : Nat) (s : State) : State :=
  setLog s.blu.log s.blu.nextSeq (s.blu.fetchPos + BitVec.ofNat 16 (fetched n s).length) s

/-- CHARGE_FETCH (R176): the response carries the record count and the records. -/
def execChargeFetch (tag : BitVec 16) (n : Byte) (s : State) : Host.Outcome State Fault Refusal :=
  .next (answer (.chargeFetch tag n) tag 72
    (fun s => judge [(decide (n.toNat < 1) || decide (8 < n.toNat), .badValue)]
      (fun s => (chargeFetchEffect n.toNat s, listBytes LogRecord.bytes (fetched n.toNat s))) s) s)

/-- The distance of a sequence number after the oldest held record, counted across the wrap (R177). -/
def seqDistance (seq : BitVec 16) (s : State) : Nat := (seq - s.oldestSeq).toNat

/-- The records from the oldest through a distance removed (R177 step 1). -/
def removeThrough (distance : Nat) (s : State) : State :=
  setLog (s.blu.log.drop (distance + 1)) s.blu.nextSeq s.blu.fetchPos s

/-- LOG_HIGH withdrawn when a settle has taken the held count from the level or above to below it (R179). -/
def settleHigh (before : Nat) (s : State) : State :=
  if s.mrp.params.logHigh ≤ before && s.blu.log.length < s.mrp.params.logHigh then withdrawPart .logHigh s else s

/-- CHARGE_SETTLE's effect (R177): the removal, the owed records written in ascending lane order (R175), LOG_HIGH handled. -/
def chargeSettleEffect (seq : BitVec 16) (s : State) : State :=
  settleHigh s.blu.log.length (forLanes writeOwed (removeThrough (seqDistance seq s) s))

/-- The lanes whose owed records a settle wrote, with the sequence numbers they took (R177). -/
def writtenRecords (seq : BitVec 16) (s : State) : List LogRecord :=
  let s1 := removeThrough (seqDistance seq s) s
  (forLanes writeOwed s1).blu.log.drop s1.blu.log.length

/-- CHARGE_SETTLE (R177): the response carries the number removed, the lanes written with their sequence numbers, and the held
count. -/
def execChargeSettle (tag : BitVec 16) (seq : BitVec 16) (s : State) : Host.Outcome State Fault Refusal :=
  .next (answer (.chargeSettle tag seq) tag 73
    (fun s => judge
      [(decide (s.blu.log.length ≤ seqDistance seq s), .badValue),
        (decide (s.fetchOffset ≤ seqDistance seq s), .badValue)]
      (fun s =>
        let t := chargeSettleEffect seq s
        (t, u16 (seqDistance seq s + 1) ++
          listBytes (fun (r : LogRecord) => u8 (numberOf r.charge.lane) ++ bytes16 r.seq) (writtenRecords seq s) ++
          u16 t.blu.log.length)) s) s)

/-- CHARGE_REWIND (R178): the response carries the fetch position and the held count. -/
def execChargeRewind (tag : BitVec 16) (s : State) : Host.Outcome State Fault Refusal :=
  .next (answer (.chargeRewind tag) tag 74
    (fun s => judge []
      (fun s => (setLog s.blu.log s.blu.nextSeq s.oldestSeq s, bytes16 s.oldestSeq ++ u16 s.blu.log.length)) s) s)

end Sys2Proof.Machine
end

