-- ==== Sys2Proof/Machine/PinsetterOps.lean ====
section
/-! DEFINITION. Machine/PinsetterOps.lean: the Pinsetter Supervisor's shared operations: taking a grant, a stop decision, the recovery of a fault, the entry into SERVICE, the deck a completion leaves. -/

namespace Sys2Proof.Machine

/-- The machine record a grant leaves (R31, steps 1 to 4). -/
def LaneMachine.granted (m : LaneMachine) (kind : CycleKind) (cls : CycleClass) (fromBackup : Bool) (timeout : Nat) :
    LaneMachine :=
  { m with
    tag := m.tag + 1
    inFlight := some ⟨m.tag + 1, kind, cls, fromBackup⟩
    state := .cycling
    timer := some timeout }

/-- A grant taken on a machine record: the record of R31, and the CYCLE entry of its step 5. -/
def grantOn (l : Lane) (m : LaneMachine) (kind : CycleKind) (cls : CycleClass) (fromBackup : Bool) (s : State) : State :=
  listCycle l (m.tag + 1) (putMachine l (m.granted kind cls fromBackup s.mrp.params.cycleTimeout) s)

/-- A grant (R31). -/
def grant (l : Lane) (kind : CycleKind) (cls : CycleClass) (fromBackup : Bool) (s : State) : State :=
  grantOn l (s.machine l) kind cls fromBackup s

/-- A stop decision (R33): in CYCLING the machine moves to STOPPING, its timer restarts and a STOP is marked with the tag of
the cycle in flight; in any other state it has no effect. -/
def stopLane (l : Lane) (s : State) : State :=
  let m := s.machine l
  if m.state == .cycling then
    let s1 := putMachine l { m with state := .stopping, timer := some s.mrp.params.cycleTimeout } s
    match m.inFlight with
    | some c => markStop l c.tag s1
    | none => s1
  else s

/-- The record on entry into SERVICE (R43). -/
def LaneMachine.inService (m : LaneMachine) : LaneMachine :=
  { m with
    state := .service
    deckValid := false
    serviceRequested := false
    timer := none
    inFlight := none
    fault := none }

/-- The return from FAULT to READY, on the later of the node's and the desk's word (R39, R40). -/
def recoverLane (l : Lane) (s : State) : State :=
  raiseLane .machineReady l (withdrawLane .machineFault l
    (putMachine l { s.machine l with state := .ready, deckValid := false, fault := none } s))

/-- The record with the deck a completion leaves (R29). -/
def LaneMachine.completed (m : LaneMachine) (kind : CycleKind) (result : CycleResult) : LaneMachine :=
  match result with
  | .aborted => { m with deckValid := false }
  | .ok =>
    match kind with
    | .fullRack => { m with deck := fullRack, deckValid := true }
    | .respot p => { m with deck := p, deckValid := true }
    | .pitClear => m
    | .deckOff => { m with deck := emptyDeck, deckValid := true }
    | .warm => { m with deck := emptyDeck, deckValid := true }

/-- The stray record overwritten and STRAY raised (R30, R36, R39). -/
def recordStray (l : Lane) (report : StrayReport) (s : State) : State :=
  let m := s.machine l
  raiseLane .stray l (storeMachine l { m with stray := some ⟨report, m.state⟩ } s)

/-- A completion that matches no cycle: late when its tag is the timed-out tag, stray otherwise (R36). -/
def unmatchedCompletion (l : Lane) (tag : Byte) (result : CycleResult) (s : State) : State :=
  let m := s.machine l
  match m.late with
  | some r =>
    if r.tag == tag then
      raiseLane .lateDone l (storeMachine l { m with late := some { r with result := some result } } s)
    else recordStray l (.cycleDone tag result) s
  | none => recordStray l (.cycleDone tag result) s

end Sys2Proof.Machine
end

