-- ==== Sys2Proof/Machine/HaltOps.lean ====
section
/-! DEFINITION. Machine/HaltOps.lean: the centre halt: its beginning, the drive of the Halt Line, and the return to RUN. -/

namespace Sys2Proof.Machine

/-- The beginning of a halt in RUN (R193, R51): resume requested cleared, HALT claimed on every lane, every CYCLING lane
stopped, the part HALTING or HALTED, every lift and timer evaluated, PART_STATE raised. The lanes are taken in ascending order,
which orders the events they owe (log 29). -/
def haltBegin (s : State) : State :=
  let s1 := forLanes stopLane (forLanes (claim .halt) (setHalt { s.mrp.halt with resumeRequested := false } s))
  raisePart .partState
    (forPairs evalLiftTimer (setPart (if s1.slotsInUse == 0 then .halted else .halting) s1))

/-- The start of a drive of the Halt Line (R192): the line is observed asserted within the event, and R193 applies. -/
def driveHalt (cause : DriveCause) (s : State) : State :=
  let s1 := setHalt
    { s.mrp.halt with observed := true, drive := true, cause := some cause, resumeRequested := false } s
  if s.part == .run then haltBegin s1 else s1

/-- The return to RUN (R195): resume requested cleared, the part RUN, HALT released on every lane, every lift and timer
evaluated, PART_STATE raised. The lanes are taken in ascending order, which orders the events they owe (log 29). -/
def returnToRun (s : State) : State :=
  let s1 := setPart .run (setHalt { s.mrp.halt with resumeRequested := false } s)
  raisePart .partState (forPairs evalLiftTimer (forLanes (release .halt) s1))

/-- The return to RUN at the first event at which the part is HALTED, the line is observed released and a resume is
requested (R195). -/
def tryReturn (s : State) : State :=
  if s.part == .halted && !s.mrp.halt.observed && s.mrp.halt.resumeRequested then returnToRun s else s

end Sys2Proof.Machine
end

