-- ==== Sys2Proof/Machine/DispatchOps.lean ====
section
/-! DEFINITION. Machine/DispatchOps.lean: the Cycle Dispatcher's shared operations: the merge of an AUTO post, the settling of the batch head, eligibility, choice and grant of the dispatch pass, the preemption check, and the settlement of a cycle end report. -/

namespace Sys2Proof.Machine

/-! ### AUTO posts (R54) -/

/-- The merge table of R54. -/
def mergeAuto (held : Option AutoRequest) (post : AutoRequest) : AutoRequest :=
  match held, post with
  | none, q => q
  | some .fullRack, _ => .fullRack
  | some (.respot _), q => q

/-- The AUTO request a back-up of AUTO origin holds. -/
def Backup.autoRequest (b : Backup) : Option AutoRequest :=
  match b.kind with
  | .fullRack => some .fullRack
  | .respot p => some (.respot p)
  | _ => none

/-- The merge of a post into the lane's AUTO-origin back-up when it holds one, and into the AUTO pending set otherwise (R54). -/
def mergePost (l : Lane) (post : AutoRequest) (s : State) : State :=
  match s.backup l with
  | some b =>
    if b.origin == .auto then setBackup l (some { b with kind := (mergeAuto b.autoRequest post).kind }) s
    else setAuto l (some (mergeAuto (s.auto l) post)) s
  | none => setAuto l (some (mergeAuto (s.auto l) post)) s

/-- An AUTO post handed to the Cycle Dispatcher: merged within the sender's event (R100 step 4), the pass that follows
it owed as the AUTO_POST event (log 4). -/
def postAuto (l : Lane) (post : AutoRequest) (s : State) : State := owe (.autoPost l post) (mergePost l post s)

/-! ### The batch head (R61, R62) -/

/-- Whether a lane is READY with an empty hold set. -/
def State.readyUnheld (s : State) (l : Lane) : Bool := (s.machine l).state == .ready && (s.holds l).isEmpty

/-- Whether the cursor skips the lane of this number: it is disabled or OFF (R61). -/
def cursorSkips (s : State) (n : Nat) : Bool :=
  match laneOf n with
  | some l => !s.enabled l || (s.machine l).state == .off
  | none => true

/-- Where an entry's cursor stands after skipping; none when it moves below the first lane (R61). -/
def settledCursor (s : State) (first : Nat) : Nat → Option Nat
  | 0 => none
  | n + 1 =>
    if n + 1 < first then none
    else if cursorSkips s (n + 1) then settledCursor s first n
    else some (n + 1)

/-- The batch queue after settling: spent entries leave at the head, and the first that is not spent keeps its settled cursor (R61). -/
def settledBatch (s : State) : List BatchEntry → List BatchEntry
  | [] => []
  | e :: rest =>
    match settledCursor s e.first e.cursor with
    | some c => { e with cursor := c } :: rest
    | none => settledBatch s rest

/-- The batch queue replaced, BATCH_LOW raised when a removal brings the count from above the low level to it or below (R62). -/
def replaceBatch (q : List BatchEntry) (s : State) : State :=
  let low := s.mrp.params.batchLow
  let s1 := setDispatcher { s.cdp with batch := q } s
  if low < s.cdp.batch.length && q.length ≤ low then raisePart .batchLow s1 else s1

/-- The head entry settled (R61). -/
def settleBatch (s : State) : State := replaceBatch (settledBatch s s.cdp.batch) s

/-! ### Eligibility and choice (R64, R66) -/

/-- A chosen request: its source and what is granted. -/
inductive Choice where
  | inject (lane : Lane) (kind : CycleKind)
  | autoEntry (lane : Lane) (kind : CycleKind)
  | autoBackup (lane : Lane) (kind : CycleKind)
  | batchBackup (lane : Lane) (kind : CycleKind)
  | batchHead (lane : Lane) (kind : CycleKind)
  deriving DecidableEq, Repr

/-- The inject, when eligible (R64). -/
def injectChoice (s : State) : Option Choice :=
  match s.cdp.inject with
  | some r =>
    if !r.bound && !r.cancelled && (s.machine r.lane).state == .ready && !(s.holds r.lane).halt then
      some (.inject r.lane r.kind)
    else none
  | none => none

/-- A lane's eligible AUTO request: its AUTO-origin back-up, or its AUTO entry while its back-up is empty (R64, R55). -/
def autoChoiceAt (s : State) (l : Lane) : Option Choice :=
  if s.readyUnheld l then
    match s.backup l with
    | some b => if b.origin == .auto then some (.autoBackup l b.kind) else none
    | none => (s.auto l).map fun a => .autoEntry l a.kind
  else none

/-- The AUTO choice: the first lane after the rotation pointer with an eligible AUTO request (R55). -/
def autoChoice (s : State) : Option Choice := (lanesAfter s.cdp.pointer).findSome? (autoChoiceAt s)

/-- A lane's eligible BATCH-origin back-up (R64). -/
def batchBackupAt (s : State) (l : Lane) : Option Choice :=
  match s.backup l with
  | some b => if b.origin == .batch && s.readyUnheld l then some (.batchBackup l b.kind) else none
  | none => none

/-- The cursor lane of the batch head, when settled eligible (R61). -/
def batchHeadChoice (s : State) : Option Choice :=
  match s.cdp.batch with
  | e :: _ =>
    match laneOf e.cursor with
    | some l => if s.readyUnheld l && (s.backup l).isNone then some (.batchHead l e.kind) else none
    | none => none
  | [] => none

/-- The choice within a class (R66). -/
def choiceIn (s : State) : CycleClass → Option Choice
  | .inject => injectChoice s
  | .auto => autoChoice s
  | .batch => (allLanes.findSome? (batchBackupAt s)).or (batchHeadChoice s)

/-- The choice of a dispatch pass: the highest-ranked class with an eligible request (R66). -/
def choose (s : State) : Option Choice := s.mrp.params.ranks.findSome? (choiceIn s)

/-- The batch queue with the head's cursor moved down one lane (R61). -/
def headMoved : List BatchEntry → List BatchEntry
  | [] => []
  | e :: rest => { e with cursor := e.cursor - 1 } :: rest

/-- The grant of a choice: the source emptied and the grant handed to the Pinsetter Supervisor (R67). -/
def grantChoice (c : Choice) (s : State) : State :=
  match c with
  | .inject l k => grant l k .inject false (setInject none s)
  | .autoEntry l k =>
    grant l k .auto false (setDispatcher { s.cdp with auto := s.cdp.auto.put l none, pointer := l } s)
  | .autoBackup l k =>
    grant l k .auto true (setDispatcher { s.cdp with backups := s.cdp.backups.put l none, pointer := l } s)
  | .batchBackup l k => grant l k .batch true (setBackup l none s)
  | .batchHead l k => grant l k .batch false (setDispatcher { s.cdp with batch := headMoved s.cdp.batch } s)

/-- Grants while a slot is free and a request is eligible, the head settled again after each (R65). The count bounds the
grants of one pass: there are never more than the slot budget. -/
def passGrants : Nat → State → State
  | 0, s => s
  | n + 1, s =>
    if s.slotsInUse < s.mrp.params.slotBudget then
      match choose s with
      | some c => passGrants n (settleBatch (grantChoice c s))
      | none => s
    else s

/-- A dispatch pass (R65). -/
def dispatchPass (s : State) : State := passGrants s.mrp.params.slotBudget (settleBatch s)

/-! ### Preemption (R68) -/

/-- The preemption check (R68): a waiting inject with preempt binds to its CYCLING lane when HALT is absent and the running
class is ranked below INJECT, and a stop decision is made. -/
def preemptionCheck (s : State) : State :=
  match s.cdp.inject with
  | some r =>
    let m := s.machine r.lane
    match m.inFlight with
    | some c =>
      if r.preempt && !r.bound && !r.cancelled && m.state == .cycling && !m.holds.halt &&
          decide (s.mrp.params.ranks.idxOf CycleClass.inject < s.mrp.params.ranks.idxOf c.cls) then
        stopLane r.lane (setInject (some { r with bound := true }) s)
      else s
    | none => s
  | none => s

/-! ### Cycle ends (R69, R70) -/

/-- The inject bound to a lane. -/
def State.boundInject (s : State) (l : Lane) : Option InjectRequest :=
  match s.cdp.inject with
  | some r => if r.lane == l && r.bound then some r else none
  | none => none

/-- Whether a live FULL_RACK inject bound to the lane replaces an aborted FULL_RACK or RESPOT (R69, third row). -/
def replacedByInject (r : CycleReport) (s : State) : Bool :=
  match s.boundInject r.lane with
  | some i => !i.cancelled && i.kind == .fullRack && (r.cycle.kind.code == 1 || r.cycle.kind.code == 2)
  | none => false

/-- Whether an aborted cycle is kept as the lane's back-up: the table of R69, its first row that applies. -/
def keepsAborted (r : CycleReport) (s : State) : Bool :=
  if s.cdp.discardOnAbort.at r.lane then false
  else if r.cycle.cls == .inject then false
  else if replacedByInject r s then false
  else if (s.backup r.lane).isSome then false
  else true

/-- The kind handed over at the end of a stop: the bound inject's, when the outcome is OK or ABORTED, the next state READY,
the inject not cancelled and HALT absent; the lane still has its slot (R70). -/
def handover (r : CycleReport) (s : State) : Option CycleKind :=
  match s.boundInject r.lane with
  | some i =>
    if !i.cancelled && (r.outcome == .ok || r.outcome == .aborted) && r.next == .ready && !(s.holds r.lane).halt &&
        (s.machine r.lane).state.moving then
      some i.kind
    else none
  | none => none

/-- The ended cycle disposed of by its outcome, the discard-on-abort flag cleared (R69). -/
def disposeCycle (r : CycleReport) (s : State) : State :=
  setDiscard r.lane false
    (if r.outcome == .aborted && keepsAborted r s then setBackup r.lane (some ⟨r.cycle.kind, r.cycle.cls⟩) s else s)

/-- The inject bound to the lane settled: emptied when cancelled or handed over, unbound otherwise (R70). -/
def settleInject (r : CycleReport) (handedOver : Bool) (s : State) : State :=
  match s.boundInject r.lane with
  | some i => if i.cancelled || handedOver then setInject none s else setInject (some { i with bound := false }) s
  | none => s

/-- The Cycle Dispatcher's settlement of a cycle end report (R69, R70), but for the handover's grant and the pass. -/
def settleReport (r : CycleReport) (s : State) : State :=
  settleInject r (handover r s).isSome (disposeCycle r s)

/-- The end of a cycle (R34, R35, R37, R38): the report settled within the event; on a handover the machine takes the
inject's grant on the same slot, and otherwise the record `next`. `ended` is the record with the cycle removed. The report's
dispatch pass is owed as the CYCLE_END_REPORT event (log 3). -/
def endCycle (r : CycleReport) (ended next : LaneMachine) (s : State) : State :=
  owe (.cycleEndReport r)
    (match handover r s with
      | some k => grantOn r.lane ended k .inject false (settleReport r s)
      | none => putMachine r.lane next (settleReport r s))

end Sys2Proof.Machine
end

