-- ==== Sys2Proof/Machine/ScoringOps.lean ====
section
/-! DEFINITION. Machine/ScoringOps.lean: the Scoring Engine's shared operations: target posts and checks, frame progression, score arithmetic, admission, game end and discard, the cross, the correction slots. -/

namespace Sys2Proof.Machine

/-! ### Patterns and balls -/

/-- The number of pins in a pattern. -/
def pinCount (p : Pins) : Nat := (List.range 10).countP p.getLsbD

/-- A strike: 10 pins down, not fouled (R101). -/
def Ball.strike (b : Ball) : Bool := b.pins == 10 && !b.foul

/-- The sum of the pins down of balls. -/
def pinSum (balls : List Ball) : Nat := (balls.map (·.pins)).sum

/-! ### The team seated on a lane -/

/-- The team BOWLING on a lane, with its slot. -/
def State.bowlingTeam (s : State) (l : Lane) : Option (Slot × Team) :=
  match s.seatedTeam l with
  | some (k, t) => if t.state == .bowling then some (k, t) else none
  | none => none

/-- The live conditions 1 to 5 of R75 against a lane's machine state, deck and validity. -/
def liveConditions (l : Lane) (v : PinfallView) (s : State) : Bool :=
  match s.bowlingTeam l with
  | some (_, t) =>
    v.machine == .ready && v.valid && v.deck == t.target && (s.auto l).isNone && (s.backup l).isNone
  | none => false

/-- The lane's machine state, deck and validity as they stand. -/
def State.viewOf (s : State) (l : Lane) : PinfallView :=
  ⟨(s.machine l).state, (s.machine l).deck, (s.machine l).deckValid⟩

/-! ### Target posts and checks (R84 to R86) -/

/-- The AUTO request that sets a target: FULL_RACK when it holds all ten pins, RESPOT with it otherwise (R84, R100). -/
def targetRequest (p : Pins) : AutoRequest := if p = fullRack then .fullRack else .respot p

/-- A target post for the team BOWLING on a lane (R84). -/
def targetPost (l : Lane) (t : Team) (s : State) : State := postAuto l (targetRequest t.target) s

/-- Whether a deck is not the target: not valid, or valid and different (R85, R86). -/
def deckAstray (deck : Pins) (valid : Bool) (target : Pins) : Bool := !valid || deck != target

/-- The target check for a lane on which a team becomes BOWLING (R86). -/
def targetCheck (l : Lane) (s : State) : State :=
  match s.bowlingTeam l with
  | some (_, t) =>
    let m := s.machine l
    if m.state == .ready && deckAstray m.deck m.deckValid t.target then targetPost l t s else s
  | none => s

/-! ### Score arithmetic (R104, R105) -/

/-- A frame record holding balls and nothing else. -/
def FrameRecord.ofBalls (balls : List Ball) : FrameRecord := ⟨balls, none, none, none⟩

/-- The mark the balls of a frame decide (R104). -/
def frameMark (balls : List Ball) : Option Mark :=
  match balls with
  | b1 :: rest =>
    if b1.strike then some .strike
    else
      match rest with
      | b2 :: _ =>
        if b1.pins + b2.pins = 10 then some .spare
        else if b1.pins + b2.pins < 10 then some .openFrame
        else none
      | [] => none
  | [] => none

/-- Whether frame 10 has ended for the bowler: three balls, or two that neither follow a strike nor sum to 10 (R102, R125). -/
def tenthEnded (balls : List Ball) : Bool :=
  match balls with
  | [b1, b2] => !b1.strike && b1.pins + b2.pins != 10
  | [_, _, _] => true
  | _ => false

/-- The frame score of frame `n` from its balls and the pins down of the balls that follow it (R104). -/
def frameScore (n : Nat) (balls : List Ball) (later : List Nat) : Option Nat :=
  if n = 10 then (if tenthEnded balls then some (pinSum balls) else none)
  else
    match frameMark balls, later with
    | some .strike, p1 :: p2 :: _ => some (10 + p1 + p2)
    | some .spare, p1 :: _ => some (10 + p1)
    | some .openFrame, _ => some (pinSum balls)
    | _, _ => none

/-- The frames from frame `n` on with their marks and scores computed anew (R104). -/
def scoredFrom : Nat → List (List Ball) → List FrameRecord
  | _, [] => []
  | n, balls :: rest =>
    ⟨balls, frameMark balls, frameScore n balls ((rest.flatten).map (·.pins)), none⟩ :: scoredFrom (n + 1) rest

/-- The cumulative totals: present while every score so far is present (R105). -/
def cumulated : Option Nat → List FrameRecord → List FrameRecord
  | _, [] => []
  | run, f :: rest =>
    let c := match run, f.score with
      | some a, some b => some (a + b)
      | _, _ => none
    { f with cumulative := c } :: cumulated c rest

/-- A table of ten frame records from a list. -/
def framesOfList (fs : List FrameRecord) : Table 10 FrameRecord :=
  (List.finRange 10).foldl (fun t i => t.put i ((fs[i.val]?).getD (FrameRecord.ofBalls [])))
    (Table.fill 10 (FrameRecord.ofBalls []))

/-- The ten frames' records computed anew from their balls (R105). -/
def rescored (balls : List (List Ball)) : Table 10 FrameRecord := framesOfList (cumulated (some 0) (scoredFrom 1 balls))

/-- The place of frame number 1 to 10. -/
def frameIndex (n : Nat) : Fin 10 := Fin.ofNat 10 (n - 1)

/-- A bowler's frame record. -/
def Bowler.frame (b : Bowler) (n : Nat) : FrameRecord := b.frames.at (frameIndex n)

/-- A bowler's frames' balls. -/
def Bowler.balls (b : Bowler) : List (List Ball) := b.frames.toList.map (·.balls)

/-- A bowler with the balls of one frame replaced and every frame computed anew (R105). -/
def Bowler.withBalls (b : Bowler) (n : Nat) (balls : List Ball) : Bowler :=
  { b with frames := rescored (b.balls.set (n - 1) balls) }

/-- A bowler with every frame record cleared (R90). -/
def Bowler.cleared (b : Bowler) : Bowler := { b with frames := Table.fill 10 (FrameRecord.ofBalls []) }

/-- A bowler's game total: the cumulative total of frame 10 (R105). -/
def Bowler.gameTotal (b : Bowler) : Option Nat := (b.frame 10).cumulative

/-- A game totals list with an entry appended, the oldest dropped from a list that holds 10 (R89, R106). -/
def appendTotal (ts : List GameTotal) (t : GameTotal) : List GameTotal :=
  if ts.length < Config.totalsPlaces then ts ++ [t] else ts.tail ++ [t]

/-! ### The step of the progression (R101, R102) -/

/-- The outcome of a step: whether the bowler's frame ends, and the new target. -/
structure FrameStep where
  ends : Bool
  target : Pins
  deriving DecidableEq, Repr

/-- The target for the next ball of a frame: the standing-before pattern after a foul, the standing-after pattern otherwise. -/
def leftStanding (b : Ball) (before : Pins) : Pins := if b.foul then before else b.after

/-- The step for a scored ball, `balls` being the frame's balls with it at the end, `before` its standing-before pattern (R101, R102). -/
def frameStep (frame : Nat) (balls : List Ball) (before : Pins) : FrameStep :=
  match balls with
  | [b] =>
    if b.strike then ⟨decide (frame ≠ 10), fullRack⟩ else ⟨false, leftStanding b before⟩
  | [b1, b2] =>
    if frame = 10 then
      if b1.strike then
        ⟨false, if !b2.foul && b2.after == emptyDeck then fullRack else leftStanding b2 before⟩
      else if b1.pins + b2.pins = 10 then ⟨false, fullRack⟩
      else ⟨true, fullRack⟩
    else ⟨true, fullRack⟩
  | _ => ⟨true, fullRack⟩

/-! ### Admission, game end and discard (R95 to R97, R106, R107) -/

/-- The team as an admission starts it (R96, steps 1 to 5). -/
def Team.started (t : Team) : Team :=
  { t with
    roster := t.roster.map Bowler.cleared
    recent := none
    game := if t.game = 255 then 1 else t.game + 1
    frame := 1
    bowler := 1
    ball := 1
    target := fullRack
    inProgress := true
    state := .bowling
    reservation := none }

/-- Admission tried for a team, its outcome applied (R95 to R97). -/
def tryAdmission (k : Slot) (s : State) : State :=
  match s.team k with
  | some t =>
    match admissionRefusal t.home t.roster.length s with
    | some r => markStale t.seated (setTeam k (some { t with state := .standby r }) s)
    | none =>
      markStale t.seated (targetCheck t.seated
        (setTeam k (some t.started) (admitOnSession t.home t.roster.length s)))
  | none => s

/-- Steps 1 to 3 of the game end: totals appended, game in progress no, the game charge handed over (R106). -/
def recordGame (k : Slot) (s : State) : State :=
  match s.team k with
  | some t =>
    let roster := t.roster.map fun b => { b with totals := appendTotal b.totals ⟨t.game, b.gameTotal.getD 0⟩ }
    chargeGame t.home k t.game t.roster.length
      (setTeam k (some { t with roster := roster, inProgress := false }) s)
  | none => s

/-- Admission tried when a team is to continue by itself (R106 step 5). -/
def autoContinue (k : Slot) (s : State) : State :=
  match s.team k with
  | some t => if t.autoContinue then tryAdmission k s else s
  | none => s

/-- Steps 4 to 6 of the game end: STANDBY with reason GAME_OVER, admission when auto-continue is yes, GAME_END raised and the
display stale (R106, R117). -/
def finishGame (k : Slot) (s : State) : State :=
  match s.team k with
  | some t =>
    markStale t.seated (raiseLane .gameEnd t.seated
      (autoContinue k (setTeam k (some { t with state := .standby .gameOver }) s)))
  | none => s

/-- The team with its game discarded: frames cleared, game in progress no, reservation cleared (R107). -/
def Team.discarded (t : Team) : Team :=
  { t with roster := t.roster.map Bowler.cleared, recent := none, inProgress := false, reservation := none }

/-- The discard of a team's game, its reservation returned (R107). -/
def discardGame (k : Slot) (s : State) : State :=
  match s.team k with
  | some t => returnReservation t.home t.roster.length (setTeam k (some t.discarded) s)
  | none => s

/-! ### Paired play (R112 to R117) -/

/-- A team leaves WAITING_CROSS on the lane it is seated on: with its game in progress it takes its next frame BOWLING, with a
target check (R112, R116); with its game completed it finishes the game end (R117). -/
def leaveWaiting (k : Slot) (s : State) : State :=
  match s.team k with
  | some t =>
    if t.inProgress then
      markStale t.seated (targetCheck t.seated
        (setTeam k (some { t with frame := t.frame + 1, bowler := 1, ball := 1, target := fullRack, state := .bowling }) s))
    else finishGame k s
  | none => s

/-- The team seated on a lane leaves WAITING_CROSS, if it is in it. -/
def leaveSeated (l : Lane) (s : State) : State :=
  match s.seatedTeam l with
  | some (k, t) => if t.state == .waitingCross then leaveWaiting k s else s
  | none => s

/-- The waiting teams of a pair leave, the odd lane's first (R112, R117). -/
def leavePair (p : Pair) (s : State) : State := leaveSeated (evenLane p) (leaveSeated (oddLane p) s)

/-- A team moved to a lane by a cross, its reservation cleared (R115, steps 1 and 2). -/
def Team.moved (t : Team) (l : Lane) : Team := { t with seated := l, reservation := none }

/-- The cross of a team on its lane with what the partner lane seats (R115). -/
def cross (k : Slot) (t : Team) (other : Option (Slot × Team)) (s : State) : State :=
  let there := partner t.seated
  let s1 := setTeam k (some (t.moved there)) s
  let s2 := match other with
    | some (u, x) => setTeam u (some (x.moved t.seated)) s1
    | none => s1
  markStale there (markStale t.seated (leavePair (pairOf t.seated) s2))

/-- The cross check for a team in WAITING_CROSS (R114). -/
def crossCheck (k : Slot) (s : State) : State :=
  match s.team k with
  | some t =>
    match s.seatedTeam (partner t.seated) with
    | some (u, x) => if x.state == .bowling then s else cross k t (some (u, x)) s
    | none => cross k t none s
  | none => s

/-! ### Partners that leave (R118) -/

/-- The team in WAITING_CROSS on the partner lane of a lane whose pair is PAIRED (R118). -/
def waitingPartner (l : Lane) (s : State) : Option Slot :=
  match s.mode (pairOf l) with
  | .opened => none
  | .paired =>
    match s.seatedTeam (partner l) with
    | some (k, t) => if t.state == .waitingCross then some k else none
    | none => none

/-- The cross check made again for the waiting team of the partner lane (R118). -/
def recheckPartner (l : Lane) (s : State) : State :=
  match waitingPartner l s with
  | some k => crossCheck k s
  | none => s

/-- Whether a cross was taken, and the slot of the team that crossed (R118). A waiting team whose partner has left BOWLING always
crosses (R114). -/
def crossBytes (k : Option Slot) : List Byte := yesNo k.isSome ++ optBytes (fun k => u8 (numberOf k)) k

/-- A complete team frame in PAIRED mode (R113). -/
def enterWaiting (k : Slot) (s : State) : State :=
  match s.team k with
  | some t =>
    let s1 := if t.frame = 10 then recordGame k s else s
    match s1.team k with
    | some t1 =>
      crossCheck k (setTeam k
        (some { t1 with state := .waitingCross, bowler := 1, ball := 1, target := fullRack }) s1)
    | none => s1
  | none => s

/-- The end of a bowler's frame (R103): the next bowler, or the complete team frame. -/
def endBowlerFrame (k : Slot) (s : State) : State :=
  match s.team k with
  | some t =>
    if t.bowler < t.roster.length then
      setTeam k (some { t with bowler := t.bowler + 1, ball := 1 }) s
    else
      match s.mode (pairOf t.seated) with
      | .paired => enterWaiting k s
      | .opened =>
        if t.frame = 10 then finishGame k (recordGame k s)
        else setTeam k (some { t with frame := t.frame + 1, bowler := 1, ball := 1 }) s
  | none => s

/-- A scored ball placed and the team moved on (R100). -/
def scoreBall (l : Lane) (k : Slot) (t : Team) (ball : Ball) (before : Pins) (s : State) : State :=
  match t.roster[t.bowler - 1]? with
  | some b =>
    let balls := (b.frame t.frame).balls ++ [ball]
    let st := frameStep t.frame balls before
    let t1 : Team :=
      { t with
        roster := t.roster.set (t.bowler - 1) (b.withBalls t.frame balls)
        recent := some ⟨t.bowler, t.frame, balls.length⟩
        reservation := none
        target := st.target
        ball := if st.ends then t.ball else balls.length + 1 }
    let s1 := markStale l (postAuto l (targetRequest st.target) (setTeam k (some t1) s))
    if st.ends then endBowlerFrame k s1 else s1
  | none => s

/-! ### Correction slots (R120) -/

/-- A lane's correction slot emptied, its pending CORRECTION notice withdrawn (R120). -/
def emptyCorrection (l : Lane) (s : State) : State :=
  match s.correction l with
  | some _ => withdrawLane .correction l (setCorrection l none s)
  | none => s

/-- A lane's correction slot emptied when a test picks its content. -/
def emptyPicked (pick : Correction → Bool) (l : Lane) (s : State) : State :=
  match s.correction l with
  | some c => if pick c then emptyCorrection l s else s
  | none => s

/-- Every correction slot that a test picks emptied. -/
def emptyCorrections (pick : Correction → Bool) (s : State) : State := forLanes (emptyPicked pick) s

end Sys2Proof.Machine
end

