-- ==== Sys2Proof/Machine/Configuration.lean ====
section
/-! DEFINITION. Machine/Configuration.lean: the meanings of COMMIT, RECONFIGURE, LANE_ENABLE, LANE_DISABLE and LANE_RESET (spec/11, sections 11.4 and 11.5). -/

namespace Sys2Proof.Machine

/-! ### COMMIT (R185, R186) -/

/-- A violation a COMMIT names (R185). -/
inductive Violation where
  | missingAddress (lane : Lane)
  | missingBr (pair : Pair)
  | rackAboveCapacity (pair : Pair)
  | duplicateLane (lane : Lane)
  | duplicatePair (pair : Pair)
  deriving DecidableEq, Repr

/-- A violation as the response names it: its place in R185's list, then the lane's or pair's number (R26, log 15). -/
def Violation.bytes : Violation → List Byte
  | .missingAddress l => u8 1 ++ u8 (numberOf l)
  | .missingBr p => u8 2 ++ u8 (numberOf p)
  | .rackAboveCapacity p => u8 3 ++ u8 (numberOf p)
  | .duplicateLane l => u8 4 ++ u8 (numberOf l)
  | .duplicatePair p => u8 4 ++ u8 (numberOf p)

/-- Whether a lane entry lacks its PS, FL or CN address (R185, R188). -/
def LaneEntry.lacksAddress (e : LaneEntry) : Bool := e.ps.isNone || e.fl.isNone || e.cn.isNone

/-- The present addresses of a lane entry in the order PS, FL, CN. -/
def LaneEntry.addresses (e : LaneEntry) : List Byte := e.ps.toList ++ e.fl.toList ++ e.cn.toList

/-- The addresses of the enabled lanes and pairs with the violation that each would name, in the order R185 reads them. -/
def addressReading (s : State) : List (Byte × Violation) :=
  (allLanes.flatMap fun l => if s.enabled l then (s.laneEntry l).addresses.map fun a => (a, .duplicateLane l) else []) ++
    (allPairs.flatMap fun p =>
      if s.pairEnabled p then (s.pairEntry p).br.toList.map fun a => (a, .duplicatePair p) else [])

/-- The entry holding the first address that has been read before (R185). -/
def firstRepeated (seen : List Byte) : List (Byte × Violation) → Option Violation
  | [] => none
  | (a, v) :: rest => if a ∈ seen then some v else firstRepeated (a :: seen) rest

/-- The violation of COMMIT's table, its first row that applies (R185). -/
def commitViolation (s : State) : Option Violation :=
  (((allLanes.find? fun l => s.enabled l && (s.laneEntry l).lacksAddress).map .missingAddress).or
    ((allPairs.find? fun p => s.pairEnabled p && (s.pairEntry p).br.isNone).map .missingBr)).or
    (((allPairs.find? fun p => decide ((s.pairEntry p).capacity < (s.pairEntry p).initialRack)).map
      .rackAboveCapacity).or (firstRepeated [] (addressReading s)))

/-- The pair record with the values of its pair entry (R149). -/
def PairRecord.committed (r : PairRecord) (e : PairEntry) : PairRecord :=
  { r with capacity := e.capacity, almostFull := e.almostFull, rack := e.initialRack }.overrunRelieved

/-- COMMIT at the Ball Return Monitor for one pair (R149): the entry taken, lift and timer evaluated, PAIR claimed where causes
stand, and RACK_HIGH judged with the places before counted as above the level. -/
def commitPair (p : Pair) (s : State) : State :=
  let s1 := evalLiftTimer p (putPair p ((s.pair p).committed (s.pairEntry p)) s)
  let s2 := if (s.pair p).causes.isEmpty then s1 else claimPair p s1
  applyFreePlaces p ((s2.pair p).almostFull + 1) s2

/-- The PROBE mark and the stale display that bringing a lane under supervision sets (R45, R17). -/
def superviseLane (l : Lane) (s : State) : State := markStale l (setProbeMark l true s)

/-- A lane brought under supervision when it is enabled (R186 steps 2 and 3). -/
def superviseEnabled (l : Lane) (s : State) : State := if s.enabled l then superviseLane l s else s

/-- COMMIT's effect (R186): RUN, or with the line observed asserted the halt of R193, then PROBEs, displays, the Ball Return
Monitor's part and PART_STATE. The pairs are taken in ascending order, which orders the RACK_HIGH notices of one COMMIT: R149
gives no order (log 29). -/
def commitEffect (s : State) : State :=
  let s1 := if s.mrp.halt.observed then haltBegin s else setPart .run s
  let s2 := forLanes superviseEnabled s1
  raisePart .partState (forPairs commitPair s2)

/-- The judgement of COMMIT: its BAD_VALUE response names the violation (R181, R185). -/
def commitJudge (s : State) : State × Result × List Byte :=
  if !s.inConfig then (s, .badState, [])
  else
    match commitViolation s with
    | some v => (s, .badValue, v.bytes)
    | none => (commitEffect s, .ok, u8 (commitEffect s).part.code)

/-- COMMIT (R185, R186): the response carries the part state. -/
def execCommit (tag : BitVec 16) (s : State) : Host.Outcome State Fault Refusal :=
  .next (answer (.commit tag) tag 6 commitJudge s)

/-! ### RECONFIGURE (R187) -/

/-- A lane machine record in CONFIG: OFF with the deck not valid, every record removed, the hold set empty; the cycle tag kept (R46). -/
def LaneMachine.configured (m : LaneMachine) : LaneMachine :=
  { m with
    state := .off
    deckValid := false
    inFlight := none
    timer := none
    fault := none
    serviceRequested := false
    stray := none
    late := none
    holds := HoldSet.empty }

/-- RECONFIGURE at the Pinsetter Supervisor for one lane (R46). -/
def configureLane (l : Lane) (s : State) : State :=
  withdrawLane .serviceReady l (withdrawLane .machineFault l (putMachine l (s.machine l).configured s))

/-- RECONFIGURE at the Cycle Dispatcher (R72): everything emptied, the pointer at 32, BATCH_LOW withdrawn. -/
def configureDispatcher (s : State) : State :=
  withdrawPart .batchLow (setDispatcher State.reset.cdp s)

/-- RECONFIGURE at the Lane Link Interface (R16, R17): PROBE and STOP marks, CYCLE list and console traffic cleared. -/
def configureLink (s : State) : State :=
  setLink
    { s.lli with
      stopMarks := Table.fill 32 none
      cycleList := []
      probeMarks := Table.fill 32 false
      console := Table.fill 32 ⟨false, []⟩ } s

/-- RECONFIGURE at the Scoring Engine (R74, R110, R120). -/
def configureScoring (s : State) : State :=
  let s1 := forLanes emptyCorrection s
  { s1 with
    sce := { s1.sce with deliveries := Table.fill 32 none, modes := Table.fill 16 .opened } }

/-- RECONFIGURE's effect (R187). The lanes are taken in ascending order, which orders the events they owe (log 29). -/
def reconfigureEffect (s : State) : State :=
  raisePart .partState
    (configureLink (forPairs evalLiftTimer (configureScoring (configureDispatcher
      (forLanes configureLane (setPart .config s))))))

/-- RECONFIGURE (R187): the response carries the part state. -/
def execReconfigure (tag : BitVec 16) (s : State) : Host.Outcome State Fault Refusal :=
  .next (answer (.reconfigure tag) tag 7
    (fun s => judge
      [(s.inConfig, .badState), (s.inHalt, .halted), (allLanes.any fun l => !s.sessionClosed l, .inUse),
        (allSlots.any fun k => (s.team k).isSome, .inUse), (decide (0 < s.slotsInUse), .inUse)]
      (fun s =>
        let t := reconfigureEffect s
        (t, u8 t.part.code)) s) s)

/-! ### Lanes (R188 to R190) -/

/-- A lane's enabled flag replaced. -/
def setEnabled (l : Lane) (b : Bool) (s : State) : State :=
  { s with frr := { s.frr with lanes := s.frr.lanes.put l { s.laneEntry l with enabled := b } } }

/-- The addresses that enabled lanes and pairs hold. -/
def heldAddresses (s : State) : List Byte :=
  (allLanes.flatMap fun l => if s.enabled l then (s.laneEntry l).addresses else []) ++
    (allPairs.flatMap fun p => if s.pairEnabled p then (s.pairEntry p).br.toList else [])

/-- The BR address that an enable of the lane brings under supervision: its pair's, when the pair is disabled (R188). -/
def broughtBr (l : Lane) (s : State) : List Byte :=
  if s.pairEnabled (pairOf l) then [] else (s.pairEntry (pairOf l)).br.toList

/-- The last row of R188: two of the lane's addresses equal, or an address held by an enabled lane or pair. -/
def enableClashes (l : Lane) (s : State) : Bool :=
  let own := (s.laneEntry l).addresses
  decide (¬ own.Nodup) || (own ++ broughtBr l s).any fun a => decide (a ∈ heldAddresses s)

/-- LANE_ENABLE's effect (R188). -/
def laneEnableEffect (l : Lane) (s : State) : State :=
  let s1 := superviseLane l (setEnabled l true s)
  dispatchPass (if s.pairEnabled (pairOf l) then s1 else evalLiftTimer (pairOf l) s1)

/-- The enabled flag and the machine state, as LANE_ENABLE and LANE_DISABLE return them. -/
def supervisionBytes (l : Lane) (s : State) : List Byte := yesNo (s.enabled l) ++ u8 (s.machine l).state.code

/-- LANE_ENABLE (R188): the response carries the enabled flag and the machine state. -/
def execLaneEnable (tag : BitVec 16) (lane : Byte) (s : State) : Host.Outcome State Fault Refusal :=
  .next (answer (.laneEnable tag lane) tag 8
    (fun s =>
      let l := laneAt lane
      judge
        [(s.inConfig, .badState), (noLane lane, .badValue), (s.inHalt, .halted), (s.enabled l, .badState),
          ((s.laneEntry l).lacksAddress, .badValue),
          (!s.pairEnabled (pairOf l) && (s.pairEntry (pairOf l)).br.isNone, .badValue), (enableClashes l s, .badValue)]
        (fun s =>
          let t := laneEnableEffect l s
          (t, supervisionBytes l t)) s) s)

/-- A lane machine record after LANE_DISABLE (R47): OFF, the deck not valid, the fault, stray and late records absent. -/
def LaneMachine.disabled (m : LaneMachine) : LaneMachine :=
  { m with state := .off, deckValid := false, fault := none, stray := none, late := none }

/-- The lane's requests removed from the Cycle Dispatcher: AUTO entry, back-up and an inject naming it (R73). -/
def dropRequests (l : Lane) (s : State) : State :=
  let s1 := setBackup l none (setAuto l none s)
  match s1.cdp.inject with
  | some r => if r.lane == l then setInject none s1 else s1
  | none => s1

/-- LANE_DISABLE's effect (R189), but for the pass that ends it. -/
def disableLane (l : Lane) (s : State) : State :=
  let s1 := setEnabled l false s
  let s2 := setProbeMark l false (withdrawLane .machineFault l (putMachine l (s1.machine l).disabled s1))
  let s3 := setMode (pairOf l) .opened (emptyCorrection l (setDelivery l none (dropRequests l s2)))
  let s4 := setConsole l ⟨false, []⟩ s3
  if s4.pairEnabled (pairOf l) then s4 else evalLiftTimer (pairOf l) s4

/-- LANE_DISABLE's effect (R189). -/
def laneDisableEffect (l : Lane) (s : State) : State := dispatchPass (disableLane l s)

/-- LANE_DISABLE (R189): the response carries the enabled flag and the machine state. -/
def execLaneDisable (tag : BitVec 16) (lane : Byte) (s : State) : Host.Outcome State Fault Refusal :=
  .next (answer (.laneDisable tag lane) tag 9
    (fun s =>
      let l := laneAt lane
      judge
        [(s.inConfig, .badState), (noLane lane, .badValue), (s.inHalt, .halted), (!s.enabled l, .badState),
          (!s.sessionClosed l, .inUse), (s.homesTeam l || (s.seatedTeam l).isSome, .inUse),
          ((s.machine l).state.moving || (s.machine l).state == .service, .badState)]
        (fun s =>
          let t := laneDisableEffect l s
          (t, supervisionBytes l t)) s) s)

/-- The seated team's part of a LANE_RESET (R108, R113): a game in progress discarded and the team STANDBY with reason RESET; a
waiting team whose game has ended STANDBY with reason RESET and GAME_END raised; a STANDBY team's reservation cleared. -/
def resetTeam (l : Lane) (s : State) : State :=
  match s.seatedTeam l with
  | some (k, t) =>
    if t.inProgress then
      setTeam k (some { t.discarded with state := .standby .reset }) (discardGame k s)
    else
      match t.state with
      | .waitingCross =>
        raiseLane .gameEnd l (setTeam k (some { t with state := .standby .reset, reservation := none }) s)
      | .standby _ => setTeam k (some { t with reservation := none }) s
      | .bowling => s
  | none => s

/-- The Scoring Engine's part of a LANE_RESET (R108). -/
def resetScoring (l : Lane) (s : State) : State :=
  markStale l (emptyCorrection l (resetTeam l (setDelivery l none s)))

/-- The Cycle Dispatcher's part of a LANE_RESET (R73). -/
def resetRequests (l : Lane) (s : State) : State :=
  let s1 := dropRequests l s
  if (s.machine l).state.moving then setDiscard l true s1 else s1

/-- LANE_RESET's effect, in R190's order: the Scoring Engine, the Cycle Dispatcher with its pass, the partner's cross check (R118). -/
def laneResetEffect (l : Lane) (s : State) : State :=
  recheckPartner l (dispatchPass (resetRequests l (resetScoring l s)))

/-- Whether LANE_RESET discards a game: the seated team has one in progress (R107, R108). -/
def State.seatsGame (s : State) (l : Lane) : Bool :=
  match s.seatedTeam l with
  | some (_, t) => t.inProgress
  | none => false

/-- LANE_RESET (R190): the response carries whether a game was discarded, whether a cross was taken and the slot that crossed. -/
def execLaneReset (tag : BitVec 16) (lane : Byte) (s : State) : Host.Outcome State Fault Refusal :=
  .next (answer (.laneReset tag lane) tag 10
    (fun s =>
      let l := laneAt lane
      judge [(s.inConfig, .badState), (noLane lane, .badValue), (!s.enabled l, .badState)]
        (fun s =>
          (laneResetEffect l s,
            yesNo (s.seatsGame l) ++ crossBytes (waitingPartner l (resetScoring l s)))) s) s)

end Sys2Proof.Machine
end

