-- ==== Sys2Proof/Machine/Corrections.lean ====
section
/-! DEFINITION. Machine/Corrections.lean: the meanings of the correction commands (spec/07): CORRECTION_REQUEST, CORRECTION_CLOSE, AMEND_RESERVE, AMEND_COMMIT. -/

namespace Sys2Proof.Machine

/-- R121: the first case that applies. -/
def correctionRequestEffect (l : Lane) (bowler frame reason : Nat) (s : State) : State :=
  if s.actsOnLane l then
    match s.seatedTeam l with
    | none => s
    | some (k, t) =>
      if t.roster.length < bowler then s
      else if (s.correction l).isSome then raiseConsole .busy l s
      else raiseLane .correction l (setCorrection l (some ⟨k, bowler, frame, reason⟩) s)
  else s

/-- CORRECTION_REQUEST from a console (R121). -/
def execCorrectionRequest (l : Lane) (bowler frame reason : Nat) (s : State) : Host.Outcome State Fault Refusal :=
  .next (correctionRequestEffect l bowler frame reason (take (.correctionRequest l bowler frame reason) s))

/-- CORRECTION_CLOSE (R123): the slot emptied; the response carries the content it held. -/
def execCorrectionClose (tag : BitVec 16) (lane : Byte) (s : State) : Host.Outcome State Fault Refusal :=
  .next (answer (.correctionClose tag lane) tag 48
    (fun s => judge
      [(s.inConfig, .badState), (noLane lane, .badValue), ((s.correction (laneAt lane)).isNone, .badState)]
      (fun s => (emptyCorrection (laneAt lane) s,
        match s.correction (laneAt lane) with
        | some c => c.bytes
        | none => [])) s) s)

/-! ### The amendment reservation (R125, R126) -/

/-- The amendable game of a team: `some true` the current game, `some false` the last completed game, `none` none (R125). -/
def Team.amendable (t : Team) : Option Bool :=
  match t.state with
  | .bowling => some true
  | .waitingCross => some t.inProgress
  | .standby .gameOver => some false
  | .standby .noCredit => some false
  | .standby .locked => some false
  | .standby .logFull => some false
  | .standby .new => none
  | .standby .noSession => none
  | .standby .reset => none

/-- Whether a frame of a bowler is complete (R125). -/
def frameComplete (n : Nat) (balls : List Ball) : Bool :=
  if n = 10 then tenthEnded balls
  else
    match balls with
    | [b] => b.strike
    | [_, _] => true
    | _ => false

/-- The frame record of a team's bowler, both counted from 1. -/
def Team.frameOf (t : Team) (bowler frame : Nat) : Option FrameRecord :=
  (t.roster[bowler - 1]?).map fun b => b.frame frame

/-- The row "slot is outside 1 to 32, bowler outside 1 to 6, or frame outside 1 to 10" (R126, R128). -/
def amendOutside (slot bowler frame : Byte) : Bool :=
  noSlot slot || decide (bowler.toNat < 1) || decide (6 < bowler.toNat) || decide (frame.toNat < 1) ||
    decide (10 < frame.toNat)

/-- The rows of R126 that read the team: more bowlers than the roster, no amendable game, a frame not complete. -/
def reserveTeamRows (t : Team) (bowler frame : Nat) : List (Bool × Result) :=
  [(decide (t.roster.length < bowler), .badValue), (t.amendable.isNone, .badState),
    (match t.frameOf bowler frame with
      | some f => !frameComplete frame f.balls
      | none => true, .badState)]

/-- AMEND_RESERVE's response: the game number, current game 1 or last completed game 0, and the frame record (R126, log 16). -/
def reserveResponse (t : Team) (bowler frame : Nat) : List Byte :=
  u8 t.game ++ yesNo (t.amendable == some true) ++
    (match t.frameOf bowler frame with
      | some f => f.bytes
      | none => [])

/-- AMEND_RESERVE (R126). -/
def execAmendReserve (tag : BitVec 16) (slot bowler frame : Byte) (s : State) : Host.Outcome State Fault Refusal :=
  .next (answer (.amendReserve tag slot bowler frame) tag 49
    (fun s =>
      let k := slotAt slot
      judge
        ([(s.inConfig, .badState), (amendOutside slot bowler frame, .badValue), ((s.team k).isNone, .badState)] ++
          (match s.team k with
            | some t => reserveTeamRows t bowler.toNat frame.toNat
            | none => []))
        (fun s =>
          match s.team k with
          | some t =>
            (setTeam k (some { t with reservation := some ⟨bowler.toNat, frame.toNat⟩ }) s,
              reserveResponse t bowler.toNat frame.toNat)
          | none => (s, [])) s) s)

/-! ### Committing an amendment (R128 to R130) -/

/-- A committed ball that is a strike: 10 pins down and foul 0 (R129). -/
def wireStrike (w : WireBall) : Bool := w.pins == 10 && w.foul == 0

/-- The limits of R129 for frames 1 to 9. -/
def earlyLimits (balls : List Ball) (ws : List WireBall) : Bool :=
  match balls, ws with
  | [b1], [w1] => wireStrike w1 == b1.strike
  | [b1, _], [w1, w2] => wireStrike w1 == b1.strike && decide (w1.pins.toNat + w2.pins.toNat ≤ 10)
  | _, _ => false

/-- Whether the third ball of frame 10 is earned: ball 1 is a strike, or balls 1 and 2 sum to 10 (R129). -/
def thirdEarned (strike1 : Bool) (pins1 pins2 : Nat) : Bool := strike1 || pins1 + pins2 == 10

/-- What ball 2 of frame 10 may count at most (R129). -/
def secondBound (w1 : WireBall) : Nat := if wireStrike w1 then 10 else 10 - w1.pins.toNat

/-- What ball 3 of frame 10 may count at most (R129). -/
def thirdBound (w1 w2 : WireBall) : Nat :=
  if wireStrike w1 && w2.pins != 10 then 10 - w2.pins.toNat else 10

/-- The limits of R129 for frame 10. -/
def tenthLimits (balls : List Ball) (ws : List WireBall) : Bool :=
  match balls, ws with
  | b1 :: b2 :: _, w1 :: w2 :: more =>
    wireStrike w1 == b1.strike &&
      thirdEarned (wireStrike w1) w1.pins.toNat w2.pins.toNat == thirdEarned b1.strike b1.pins b2.pins &&
      decide (w2.pins.toNat ≤ secondBound w1) && more.all fun w3 => decide (w3.pins.toNat ≤ thirdBound w1 w2)
  | _, _ => false

/-- The rows of R128 that read the reserved frame. -/
def commitFrameRows (n : Nat) (balls : List Ball) (count : Nat) (ws : List WireBall) : List (Bool × Result) :=
  [(count != balls.length, .badValue),
    (ws.any fun w => decide (10 < w.pins.toNat) || (w.foul == 1 && w.pins != 0), .badValue),
    (n != 10 && !earlyLimits balls ws, .badValue), (n == 10 && !tenthLimits balls ws, .badValue)]

/-- A ball record with its committed count and foul flag (R130 step 1). -/
def Ball.amend (b : Ball) (w : WireBall) : Ball := { b with pins := w.pins.toNat, foul := w.foul == 1, amended := true }

/-- The newest entry of a game replaced, in a list read newest first. -/
def replaceNewest (game total : Nat) : List GameTotal → List GameTotal
  | [] => []
  | e :: rest => if e.game = game then { e with total := total } :: rest else e :: replaceNewest game total rest

/-- A game totals list with the newest entry of a game replaced (R130 step 3). -/
def amendTotals (game total : Nat) (ts : List GameTotal) : List GameTotal :=
  (replaceNewest game total ts.reverse).reverse

/-- A bowler's record after a commit (R130 steps 1 to 3). -/
def Bowler.amend (b : Bowler) (n game : Nat) (inProgress : Bool) (ws : List WireBall) : Bowler :=
  let b1 := b.withBalls n (List.zipWith Ball.amend (b.frame n).balls ws)
  if inProgress then b1 else { b1 with totals := amendTotals game (b1.gameTotal.getD 0) b1.totals }

/-- A team after a commit (R130 steps 1 to 4). -/
def Team.amend (t : Team) (bowler n : Nat) (ws : List WireBall) : Team :=
  { t with
    roster := match t.roster[bowler - 1]? with
      | some b => t.roster.set (bowler - 1) (b.amend n t.game t.inProgress ws)
      | none => t.roster
    reservation := none }

/-- AMEND_COMMIT's effect (R130). -/
def amendCommitEffect (k : Slot) (t : Team) (bowler n : Nat) (ws : List WireBall) (s : State) : State :=
  markStale t.seated
    (emptyCorrections (fun c => c.team == k && c.bowler == bowler && c.frame == n)
      (setTeam k (some (t.amend bowler n ws)) s))

/-- AMEND_COMMIT's response: the game number, the amended frame record, the game total when frame 10 has ended (R130). -/
def commitResponse (t : Team) (bowler n : Nat) : List Byte :=
  u8 t.game ++
    (match t.roster[bowler - 1]? with
      | some b => (b.frame n).bytes ++ optBytes u16 b.gameTotal
      | none => [])

/-- Whether a slot's context holds the reservation a commit relies on (R128). -/
def State.reserved (s : State) (k : Slot) (bowler n : Nat) : Bool :=
  match s.team k with
  | some t => t.reservation == some ⟨bowler, n⟩
  | none => false

/-- AMEND_COMMIT (R128). -/
def execAmendCommit (tag : BitVec 16) (slot bowler frame count : Byte) (balls : List WireBall) (s : State) :
    Host.Outcome State Fault Refusal :=
  .next (answer (.amendCommit tag slot bowler frame count balls) tag 50
    (fun s =>
      let k := slotAt slot
      judge
        ([(s.inConfig, .badState), (amendOutside slot bowler frame, .badValue),
            (decide (count.toNat < 1) || decide (3 < count.toNat) || balls.any (fun w => notFlag w.foul), .badValue),
            (!s.reserved k bowler.toNat frame.toNat, .noReservation)] ++
          (match (s.team k).bind fun t => t.frameOf bowler.toNat frame.toNat with
            | some f => commitFrameRows frame.toNat f.balls count.toNat balls
            | none => []))
        (fun s =>
          match s.team k with
          | some t =>
            (amendCommitEffect k t bowler.toNat frame.toNat balls s,
              commitResponse (t.amend bowler.toNat frame.toNat balls) bowler.toNat frame.toNat)
          | none => (s, [])) s) s)

end Sys2Proof.Machine
end

