-- ==== Sys2Proof/Machine/CycleDispatch.lean ====
section
/-! DEFINITION. Machine/CycleDispatch.lean: the meanings of the Cycle Dispatcher's commands (spec/03): AUTO_POST, CYCLE_END_REPORT, READY_CHANGE, HOLD_SET_CHANGE, INJECT, INJECT_CANCEL, BATCH_ADD, BATCH_FLUSH. -/

namespace Sys2Proof.Machine

/-- AUTO_POST (R54): the post merged and a dispatch pass made. A post that a block has handed over was merged within that
block's event (R100 step 4), and its event here is the pass that follows it (log 4). -/
def execAutoPost (l : Lane) (post : AutoRequest) (s : State) : Host.Outcome State Fault Refusal :=
  .next (dispatchPass
    (if .autoPost l post ∈ s.owed then take (.autoPost l post) s else mergePost l post s))

/-- A cycle end report taken by itself: settled, and the bound inject granted on a handover (R69, R70). -/
def takeReport (r : CycleReport) (s : State) : State :=
  match handover r s with
  | some k => grant r.lane k .inject false (settleReport r s)
  | none => settleReport r s

/-- CYCLE_END_REPORT (R69): the report settled and a dispatch pass made. A report made by the end of a cycle was settled within
that event (R35), and its event here is the pass that follows it (log 3). -/
def execCycleEndReport (r : CycleReport) (s : State) : Host.Outcome State Fault Refusal :=
  .next (dispatchPass
    (if .cycleEndReport r ∈ s.owed then take (.cycleEndReport r) s else takeReport r s))

/-- READY_CHANGE (R65): a dispatch pass ends the event. -/
def execReadyChange (l : Lane) (s : State) : Host.Outcome State Fault Refusal :=
  .next (dispatchPass (take (.readyChange l) s))

/-- HOLD_SET_CHANGE (R49, R65): a dispatch pass ends the event. -/
def execHoldSetChange (l : Lane) (s : State) : Host.Outcome State Fault Refusal :=
  .next (dispatchPass (take (.holdSetChange l) s))

/-- INJECT's effect (R56): the slot takes the request, then the preemption check and a dispatch pass. -/
def injectEffect (l : Lane) (kind : CycleKind) (preempt : Bool) (s : State) : State :=
  dispatchPass (preemptionCheck (setInject (some ⟨l, kind, preempt, false, false⟩) s))

/-- INJECT's response fields (R56): GRANTED 1 with the new tag, BOUND 2 or WAITING 3 with the slot's content. -/
def injectResponse (l : Lane) (s : State) : List Byte :=
  match s.cdp.inject with
  | none => u8 1 ++ [1, (s.machine l).tag] ++ [0]
  | some r => u8 (if r.bound then 2 else 3) ++ [0] ++ (1 :: r.bytes)

/-- INJECT (R56). -/
def execInject (tag : BitVec 16) (lane kind : Byte) (pattern : BitVec 16) (preempt : Byte) (s : State) :
    Host.Outcome State Fault Refusal :=
  .next (answer (.inject tag lane kind pattern preempt) tag 32
    (fun s => judge
      [(s.inConfig, .badState), (noLane lane, .badValue), ((injectKindOf kind.toNat pattern).isNone, .badValue),
        (kind == 2 && decide (1023 < pattern.toNat), .badValue), (notFlag preempt, .badValue),
        (!s.enabled (laneAt lane), .badState), (s.inHalt, .halted), (s.cdp.inject.isSome, .busy)]
      (fun s =>
        let t := injectEffect (laneAt lane) ((injectKindOf kind.toNat pattern).getD .fullRack) (flagOf preempt) s
        (t, injectResponse (laneAt lane) t)) s) s)

/-- INJECT_CANCEL's effect (R57): an unbound request leaves the slot, a bound one is marked cancelled; a pass ends the event
(R65). -/
def injectCancelEffect (s : State) : State :=
  match s.cdp.inject with
  | some r => dispatchPass (setInject (if r.bound then some { r with cancelled := true } else none) s)
  | none => s

/-- Whether the inject slot's request names a lane. -/
def State.injectNames (s : State) (l : Lane) : Bool :=
  match s.cdp.inject with
  | some r => r.lane == l
  | none => false

/-- Whether the inject slot's request is cancelled. -/
def State.injectCancelled (s : State) : Bool :=
  match s.cdp.inject with
  | some r => r.cancelled
  | none => false

/-- INJECT_CANCEL (R57): the response gives the slot's content. -/
def execInjectCancel (tag : BitVec 16) (lane : Byte) (s : State) : Host.Outcome State Fault Refusal :=
  .next (answer (.injectCancel tag lane) tag 33
    (fun s => judge
      [(s.inConfig, .badState), (noLane lane, .badValue), (!s.injectNames (laneAt lane), .badState),
        (s.injectCancelled, .badState)]
      (fun s =>
        let t := injectCancelEffect s
        (t, optBytes InjectRequest.bytes t.cdp.inject)) s) s)

/-- BATCH_ADD's effect (R59): the entry appended, BATCH_LOW withdrawn when the count comes above the low level, then a pass. A
count that was above the level before the add, after PARAM_SET lowered the level, counts as brought above it (R62, log 19). -/
def batchAddEffect (first last : Nat) (kind : CycleKind) (s : State) : State :=
  let q := s.cdp.batch ++ [⟨first, last, kind, last⟩]
  let s1 := setDispatcher { s.cdp with batch := q } s
  dispatchPass (if s.mrp.params.batchLow < q.length then withdrawPart .batchLow s1 else s1)

/-- BATCH_ADD (R59): the response carries the batch count. -/
def execBatchAdd (tag : BitVec 16) (first last kind : Byte) (s : State) : Host.Outcome State Fault Refusal :=
  .next (answer (.batchAdd tag first last kind) tag 34
    (fun s => judge
      [(s.inConfig, .badState), (noLane first || noLane last, .badValue), (decide (last.toNat < first.toNat), .badValue),
        ((batchKindOf kind.toNat).isNone, .badValue), (s.inHalt, .halted),
        (decide (Config.batchPlaces ≤ s.cdp.batch.length), .full)]
      (fun s =>
        let t := batchAddEffect first.toNat last.toNat ((batchKindOf kind.toNat).getD .fullRack) s
        (t, u8 t.cdp.batch.length)) s) s)

/-- BATCH_FLUSH (R60): every entry leaves the queue, a removal for the purpose of R62, and a pass follows (R65); the response
carries the number removed. -/
def execBatchFlush (tag : BitVec 16) (s : State) : Host.Outcome State Fault Refusal :=
  .next (answer (.batchFlush tag) tag 35
    (fun s => judge [(s.inConfig, .badState)]
      (fun s => (dispatchPass (replaceBatch [] s), u8 s.cdp.batch.length)) s) s)

end Sys2Proof.Machine
end

