-- ==== Sys2Proof/Machine/Deliveries.lean ====
section
/-! DEFINITION. Machine/Deliveries.lean: the meanings of the delivery commands (spec/04): BALL_PASS, FOUL, PINFALL_SCORING, READY_ENTRY, DELIVERY_VOID. -/

namespace Sys2Proof.Machine

/-- R76: a delivery begins, LIVE under the live conditions of R75 and DEAD otherwise; with a delivery in flight the arriving
ball is dead and the record unchanged. -/
def ballPassEffect (l : Lane) (speed : Nat) (s : State) : State :=
  if s.actsOnLane l then
    match s.delivery l with
    | none => setDelivery l (some ⟨liveConditions l (s.viewOf l) s, speed, (s.machine l).deck, false⟩) s
    | some _ => s
  else s

/-- BALL_PASS at the Scoring Engine (R76). -/
def execBallPass (l : Lane) (speed : Nat) (s : State) : Host.Outcome State Fault Refusal :=
  .next (ballPassEffect l speed (take (.ballPass l speed) s))

/-- R77. -/
def foulEffect (l : Lane) (s : State) : State :=
  if s.actsOnLane l then
    match s.delivery l with
    | some d => setDelivery l (some { d with fouled := true }) s
    | none => s
  else s

/-- FOUL (R77). -/
def execFoul (l : Lane) (s : State) : Host.Outcome State Fault Refusal :=
  .next (foulEffect l (take (.foul l) s))

/-- Standing after: the report intersected with a valid deck, the report itself otherwise (R80). -/
def PinfallView.after (v : PinfallView) (r : Pins) : Pins := if v.valid then r &&& v.deck else r

/-- Whether the report holds a mismatch pin (R80). -/
def PinfallView.mismatch (v : PinfallView) (r : Pins) : Bool := v.valid && (r &&& ~~~v.deck) != 0

/-- The ball record of a scored ball (R81). -/
def scoredBall (v : PinfallView) (r : Pins) (fouled unseen : Bool) (speed : Option Nat) : Ball :=
  { pins := if fouled then 0 else pinCount v.deck - pinCount (v.after r)
    after := v.after r
    foul := fouled
    unseen := unseen
    mismatch := v.mismatch r
    amended := false
    speed := speed }

/-- The settlement of an accepted PINFALL: the table of R80, its first row that applies (R81 to R83). -/
def settlePinfall (l : Lane) (r : Pins) (v : PinfallView) (s : State) : State :=
  match s.bowlingTeam l with
  | none => s
  | some (k, t) =>
    match s.delivery l with
    | some d =>
      if d.live then scoreBall l k t (scoredBall v r d.fouled false (some d.speed)) v.deck s
      else targetPost l t s
    | none =>
      if liveConditions l v s then scoreBall l k t (scoredBall v r false true none) v.deck s
      else targetPost l t s

/-- R79, R80: accepted when the view shows READY; after the outcome the record is NONE. -/
def pinfallScoringEffect (l : Lane) (r : Pins) (v : PinfallView) (s : State) : State :=
  if s.actsOnLane l && v.machine == .ready then setDelivery l none (settlePinfall l r v s) else s

/-- PINFALL at the Scoring Engine (R79 to R83). -/
def execPinfallScoring (l : Lane) (r : Pins) (v : PinfallView) (s : State) : Host.Outcome State Fault Refusal :=
  .next (pinfallScoringEffect l r v (take (.pinfallScoring l r v) s))

/-- R85: abandonment, then the target check with the deck and validity the event carries. -/
def readyEntryEffect (l : Lane) (deck : Pins) (valid : Bool) (s : State) : State :=
  let s1 := setDelivery l none s
  match s1.bowlingTeam l with
  | some (_, t) => if deckAstray deck valid t.target then targetPost l t s1 else s1
  | none => s1

/-- READY_ENTRY (R85). -/
def execReadyEntry (l : Lane) (deck : Pins) (valid : Bool) (s : State) : Host.Outcome State Fault Refusal :=
  .next (readyEntryEffect l deck valid (take (.readyEntry l deck valid) s))

/-- The team DELIVERY_VOID makes a target post for: the one BOWLING on a lane whose machine is READY (R87). -/
def voidPostTeam (l : Lane) (s : State) : Option Team :=
  match s.bowlingTeam l with
  | some (_, t) => if (s.machine l).state == .ready then some t else none
  | none => none

/-- DELIVERY_VOID's effect (R87). -/
def deliveryVoidEffect (l : Lane) (s : State) : State :=
  match voidPostTeam l s with
  | some t => targetPost l t (setDelivery l none s)
  | none => setDelivery l none s

/-- DELIVERY_VOID (R87): the response carries the record as it stood and whether a target post was made. -/
def execDeliveryVoid (tag : BitVec 16) (lane : Byte) (s : State) : Host.Outcome State Fault Refusal :=
  .next (answer (.deliveryVoid tag lane) tag 40
    (fun s => judge
      [(s.inConfig, .badState), (noLane lane, .badValue), (!s.enabled (laneAt lane), .badState),
        ((s.delivery (laneAt lane)).isNone, .badState)]
      (fun s => (deliveryVoidEffect (laneAt lane) s,
        deliveryBytes (s.delivery (laneAt lane)) ++ yesNo (voidPostTeam (laneAt lane) s).isSome)) s) s)

end Sys2Proof.Machine
end

