-- ==== Sys2Proof/Machine/Routing.lean ====
section
/-! DEFINITION. Machine/Routing.lean: the Frame Router's shared operations: the resolution of addresses (R4), acted-on kinds and their content (R7), the delivery of frames (R8), refusals (R24). -/

namespace Sys2Proof.Machine

/-- The node an address resolves to (R4). -/
inductive Node where
  | ps (lane : Lane)
  | fl (lane : Lane)
  | cn (lane : Lane)
  | br (pair : Pair)
  deriving DecidableEq, Repr

/-- The role of a node. -/
def Node.role : Node → Role
  | .ps _ => .ps
  | .fl _ => .fl
  | .cn _ => .cn
  | .br _ => .br

/-! ### Resolution (R4) -/

/-- The node that a lane entry holds at an address: the first of PS, FL and CN that holds it (R4). -/
def LaneEntry.nodeAt (e : LaneEntry) (l : Lane) (addr : Byte) : Option Node :=
  if e.ps = some addr then some (.ps l)
  else if e.fl = some addr then some (.fl l)
  else if e.cn = some addr then some (.cn l)
  else none

/-- The node that a pair entry holds at an address. -/
def PairEntry.nodeAt (e : PairEntry) (p : Pair) (addr : Byte) : Option Node :=
  if e.br = some addr then some (.br p) else none

/-- The node at an address among the lane entries and then the pair entries that a test counts, lowest number first. -/
def resolveWhere (lanes : Lane → Bool) (pairs : Pair → Bool) (addr : Byte) (s : State) : Option Node :=
  (allLanes.findSome? fun l => if lanes l then (s.laneEntry l).nodeAt l addr else none).or
    (allPairs.findSome? fun p => if pairs p then (s.pairEntry p).nodeAt p addr else none)

/-- The resolution of an upstream frame's source: enabled lanes and pairs alone (R4). -/
def resolveUp (addr : Byte) (s : State) : Option Node := resolveWhere s.enabled s.pairEnabled addr s

/-- The resolution of a desk frame's destination: every entry, an enabled one first (R4). -/
def resolveDown (addr : Byte) (s : State) : Option Node :=
  (resolveUp addr s).or (resolveWhere (fun _ => true) (fun _ => true) addr s)

/-! ### Acted-on kinds (R7) -/

/-- Whether a kind is acted on for a role (R7). -/
def actedOn (role : Role) (kind : Nat) : Bool :=
  match role with
  | .ps => decide (1 ≤ kind) && decide (kind ≤ 4)
  | .fl => kind == 5 || kind == 6
  | .br => decide (7 ≤ kind) && decide (kind ≤ 10)
  | .cn => kind == 11 || kind == 12

/-- Whether the Billing Unit is sent a lane's BALL_PASS (R8). -/
def billsFirstBall (l : Lane) (s : State) : Bool :=
  !s.sessionClosed l &&
    match s.terms l with
    | some t => t.trigger == .onFirstBall
    | none => false

/-- The events of a PS node's acted-on frame, none when its content is not valid (R7, R8); a PINFALL goes to the Scoring Engine
with the pinfall view (R78). -/
def psEvents (l : Lane) (kind : Nat) (payload : List Byte) (view : PinfallView) : Option (List Instr) :=
  match kind, payload with
  | 1, [p1, p0] => some [.pinfall l (pinsOfWord (word16 p1 p0)), .pinfallScoring l (pinsOfWord (word16 p1 p0)) view]
  | 2, [tag, result] =>
    if result = 0 then some [.cycleDone l tag .ok]
    else if result = 1 then some [.cycleDone l tag .aborted]
    else none
  | 3, [code, cls] =>
    if 1 ≤ code.toNat ∧ code.toNat ≤ 254 then
      if cls = 0 then some [.machineFault l code .normal]
      else if cls = 1 then some [.machineFault l code .safety]
      else none
    else none
  | 4, [] => some [.machineReady l]
  | _, _ => none

/-- The events of an FL node's acted-on frame (R7, R8). -/
def flEvents (l : Lane) (kind : Nat) (payload : List Byte) (bills : Bool) : Option (List Instr) :=
  match kind, payload with
  | 5, [s1, s0] =>
    if (word16 s1 s0).toNat ≤ 400 then
      some ([.ballPass l (word16 s1 s0).toNat, .ballPassReturn l] ++ if bills then [.ballPassBilling l] else [])
    else none
  | 6, [] => some [.foul l]
  | _, _ => none

/-- The events of a BR node's acted-on frame (R7, R8). -/
def brEvents (p : Pair) (kind : Nat) (payload : List Byte) : Option (List Instr) :=
  match kind, payload with
  | 7, [] => some [.ballArrived p]
  | 8, [] => some [.ballTaken p]
  | 9, [] => some [.liftJam p]
  | 10, [] => some [.liftClear p]
  | _, _ => none

/-- The events of a CN node's acted-on frame (R7, R8). -/
def cnEvents (l : Lane) (kind : Nat) (payload : List Byte) : Option (List Instr) :=
  match kind, payload with
  | 11, [bowler, frame, reason] =>
    if 1 ≤ bowler.toNat ∧ bowler.toNat ≤ 6 ∧ 1 ≤ frame.toNat ∧ frame.toNat ≤ 10 ∧ reason.toNat ≤ 15 then
      some [.correctionRequest l bowler.toNat frame.toNat reason.toNat]
    else none
  | 12, [] => some [.startGame l]
  | _, _ => none

/-- The lane's machine state, deck and validity at the frame's classification (R78). -/
def pinfallView (l : Lane) (s : State) : PinfallView := ⟨(s.machine l).state, (s.machine l).deck, (s.machine l).deckValid⟩

/-- The events at the blocks that an acted-on frame of a node is delivered as; none when its content is not valid (R7, R8). -/
def nodeEvents (n : Node) (f : LaneFrame) (s : State) : Option (List Instr) :=
  match n with
  | .ps l => psEvents l f.kind.toNat f.payload (pinfallView l s)
  | .fl l => flEvents l f.kind.toNat f.payload (billsFirstBall l s)
  | .br p => brEvents p f.kind.toNat f.payload
  | .cn l => cnEvents l f.kind.toNat f.payload

/-- The delivery of an acted-on frame: its events owed to the blocks (R8, log 2). -/
def deliver (n : Node) (f : LaneFrame) (s : State) : State := oweAll ((nodeEvents n f s).getD []) s

/-- The disposition for a role and kind; a kind above 31, for which the table has no place, is forwarded (R9, log 13). -/
def State.disposition (s : State) (role : Role) (kind : Nat) : Disposition :=
  if h : kind < 32 then (s.frr.dispositions.at (roleIndex role)).at ⟨kind, h⟩ else .forward

/-! ### Refusals (R14, R24) -/

/-- The subject of a forward refusal: the destination's lane, the odd lane of its pair, or the part, for UNKNOWN_DEST and when it
resolves to no entry (R14). -/
def refusalLane (dest : Byte) (reason : RefusalReason) (s : State) : Option Lane :=
  match if reason = .unknownDest then none else resolveDown dest s with
  | some (.ps l) => some l
  | some (.fl l) => some l
  | some (.cn l) => some l
  | some (.br p) => some (oddLane p)
  | none => none

/-- A refusal: the subject's record overwritten and FORWARD_REFUSED raised (R24). -/
def refuse (dest : Byte) (reason : RefusalReason) (s : State) : State :=
  match refusalLane dest reason s with
  | some l =>
    raiseLane .forwardRefused l
      { s with frr := { s.frr with laneRefusals := s.frr.laneRefusals.put l (some ⟨dest, reason⟩) } }
  | none => raisePart .forwardRefused { s with frr := { s.frr with partRefusal := some ⟨dest, reason⟩ } }

/-- The PS condition of R14, tested again at R15: why a frame to a PS node's lane is refused, none when it may pass. -/
def psRefusal (l : Lane) (s : State) : Option RefusalReason :=
  if s.inHalt then some .partHalted
  else if (s.machine l).state != .service then some .psNotInService
  else none

end Sys2Proof.Machine
end

