-- ==== Sys2Proof/Machine/Downstream.lean ====
section
/-! DEFINITION. Machine/Downstream.lean: the meaning of DOWNSTREAM_LINE_FREE: the choice of the next frame down the Lane Link (R15 to R18) and the score display (R109). -/

namespace Sys2Proof.Machine

/-! ### The score display (R109) -/

/-- The newest cumulative total of a bowler's frames; 65535 when none is present (R109). -/
def Bowler.newestTotal (b : Bowler) : Nat := (b.frames.toList.reverse.findSome? (·.cumulative)).getD 65535

/-- The ball record a team's most recent ball names (R88). -/
def Team.recentBall (t : Team) : Option Ball :=
  t.recent.bind fun r => (t.roster[r.bowler - 1]?).bind fun b => ((b.frame r.frame).balls)[r.ball - 1]?

/-- The flags of a ball: foul, unseen, mismatch, amended from bit 0 (R109). -/
def Ball.flagsByte (b : Ball) : Byte := bitsByte [b.foul, b.unseen, b.mismatch, b.amended]

/-- The pins, flags and speed of the most recent scored ball (R109). -/
def recentBytes (b : Option Ball) : List Byte :=
  match b with
  | some x => u8 x.pins ++ [x.flagsByte] ++ u16 (x.speed.getD 65535)
  | none => [255, 0] ++ u16 65535

/-- The state byte of the display: 1 STANDBY, 2 BOWLING, 3 WAITING_CROSS (R109). -/
def TeamState.displayCode : TeamState → Nat
  | .standby _ => 1
  | .bowling => 2
  | .waitingCross => 3

/-- The standby reason byte of the display: 0 for none (R109). -/
def TeamState.displayReason (x : TeamState) : Nat :=
  match x.reason? with
  | some r => r.code
  | none => 0

/-- A team's display content (R109). -/
def displayOf (k : Slot) (t : Team) : List Byte :=
  u8 (numberOf k) ++ u8 t.state.displayCode ++ u8 t.state.displayReason ++ u8 t.game ++ u8 t.frame ++ u8 t.ball ++
    u8 t.bowler ++ pinBytes t.target ++ u8 t.roster.length ++ (t.roster.flatMap fun b => u16 b.newestTotal) ++
    recentBytes t.recentBall

/-- The display content for a lane: of the team seated there, or the empty display (R17, R109). -/
def displayBytes (l : Lane) (s : State) : List Byte :=
  match s.seatedTeam l with
  | some (k, t) => displayOf k t
  | none => [0]

/-! ### The choice (R16 to R18) -/

/-- What one choice comes to: nothing to send, a frame sent, or no frame and the choice made again at once. -/
inductive Pick where
  | idle
  | sent (frame : LaneFrame) (after : State)
  | again (after : State)

/-- A frame to an address that may be absent: sent, or its mark discarded unsent (R16). -/
def sendTo (addr : Option Byte) (kind : Byte) (payload : List Byte) (s : State) : Pick :=
  match addr with
  | some a => .sent ⟨a, kind, payload⟩ s
  | none => .again s

/-- A lane's STOP mark, when eligible: no CYCLE entry of the lane is still listed (R16). -/
def eligibleStop (s : State) (l : Lane) : Option (Lane × Byte) :=
  if s.lli.cycleList.any (fun e => e.1 == l) then none else (s.lli.stopMarks.at l).map fun tag => (l, tag)

/-- The cycle in flight of a lane, when it carries a tag. -/
def flightTagged (l : Lane) (tag : Byte) (s : State) : Option Cycle :=
  (s.machine l).inFlight.bind fun c => if c.tag = tag then some c else none

/-- A STOP chosen: sent while the machine is STOPPING the cycle of its tag, discarded otherwise (R16). -/
def pickStop (l : Lane) (tag : Byte) (s : State) : Pick :=
  if (s.machine l).state == .stopping && (flightTagged l tag s).isSome then
    sendTo (s.laneEntry l).ps 17 [tag] (clearStop l s)
  else .again (clearStop l s)

/-- The CYCLE payload: tag, kind, the RESPOT pattern or the empty deck (spec/01, CYCLE). -/
def cyclePayload (c : Cycle) : List Byte := [c.tag] ++ u8 c.kind.code ++ pinBytes (c.kind.pattern?.getD emptyDeck)

/-- The CYCLE list with its oldest entry removed. -/
def dropCycle (s : State) : State := setLink { s.lli with cycleList := s.lli.cycleList.tail } s

/-- A CYCLE chosen: sent while the lane is CYCLING or STOPPING the cycle of its tag, discarded otherwise (R16). -/
def pickCycle (l : Lane) (tag : Byte) (s : State) : Pick :=
  match flightTagged l tag s with
  | some c => if (s.machine l).state.moving then sendTo (s.laneEntry l).ps 16 (cyclePayload c) (dropCycle s) else .again (dropCycle s)
  | none => .again (dropCycle s)

/-- A LIFT chosen: the pair's current command, HALT 0 or RUN 1 (R16). -/
def pickLift (p : Pair) (s : State) : Pick :=
  sendTo (s.pairEntry p).br 19 (yesNo (s.pair p).lift) (setLiftMark p false s)

/-- A PROBE chosen (R16). -/
def pickProbe (l : Lane) (s : State) : Pick := sendTo (s.laneEntry l).ps 18 [] (setProbeMark l false s)

/-- Whether a lane has console traffic (R17). -/
def Console.traffic (c : Console) : Bool := c.stale || !c.notices.isEmpty

/-- The first lane after the console pointer with console traffic (R18). -/
def consoleLane (s : State) : Option Lane :=
  (lanesAfter s.lli.consolePointer).find? fun l => (s.lli.console.at l).traffic

/-- A lane's console traffic replaced with the console pointer moved to the lane (R18). -/
def consoleServed (l : Lane) (c : Console) (s : State) : State :=
  setLink { s.lli with console := s.lli.console.put l c, consolePointer := l } s

/-- The lowest-tier turn given to the console traffic or to the forward-down queue (R18). -/
def takeTurn (console : Bool) (s : State) : State := setLink { s.lli with consoleHadTurn := console } s

/-- A console turn (R17, R18): the oldest lane notice, else a SCORE_UPDATE; traffic of a lane without a CN address is cleared
without sending, and does not count as the turn. -/
def pickConsole (l : Lane) (s : State) : Pick :=
  let c := s.lli.console.at l
  match (s.laneEntry l).cn with
  | none => .again (consoleServed l ⟨false, []⟩ s)
  | some a =>
    match c.notices with
    | code :: rest => .sent ⟨a, 21, u8 code.code⟩ (takeTurn true (consoleServed l { c with notices := rest } s))
    | [] => .sent ⟨a, 20, displayBytes l s⟩ (takeTurn true (consoleServed l { c with stale := false } s))

/-- The reason a queued frame is refused at its turn (R15). -/
def queuedRefusal (f : LaneFrame) (s : State) : Option RefusalReason :=
  if s.inConfig then none
  else
    match resolveDown f.addr s with
    | some (.ps l) => psRefusal l s
    | _ => none

/-- The forward-down queue's turn (R15): its oldest frame removed, and sent or refused. -/
def pickQueued (f : LaneFrame) (rest : List LaneFrame) (s : State) : Pick :=
  let s1 := setLink { s.lli with forwardDown := rest } s
  match queuedRefusal f s with
  | some r => .again (refuse f.addr r s1)
  | none => .sent f (takeTurn false s1)

/-- The lowest tier (R18): with both sources holding something, the one that did not have the previous turn. -/
def pickLowest (s : State) : Pick :=
  match consoleLane s, s.lli.forwardDown with
  | none, [] => .idle
  | some l, [] => pickConsole l s
  | none, f :: rest => pickQueued f rest s
  | some l, f :: rest => if s.lli.consoleHadTurn then pickQueued f rest s else pickConsole l s

/-- One choice, by the precedence of R18. -/
def pick (s : State) : Pick :=
  match allLanes.findSome? (eligibleStop s) with
  | some (l, tag) => pickStop l tag s
  | none =>
    match s.lli.cycleList with
    | (l, tag) :: _ => pickCycle l tag s
    | [] =>
      match allPairs.find? fun p => s.lli.liftMarks.at p with
      | some p => pickLift p s
      | none =>
        match allLanes.find? fun l => s.lli.probeMarks.at l with
        | some l => pickProbe l s
        | none => pickLowest s

/-- The line after a choice (log 9). -/
def setLine (f : Option LaneFrame) (s : State) : State := setLink { s.lli with line := f } s

/-- Choices made until one sends a frame or nothing is left; each that sends none removes an entry, so the count is a bound. -/
def pickFrame : Nat → State → State
  | 0, s => setLine none s
  | n + 1, s =>
    match pick s with
    | .idle => setLine none s
    | .sent f t => setLine (some f) t
    | .again t => pickFrame n t

/-- A number of choices that empties every mark, entry and queue of the Lane Link Interface. -/
def pickBound (s : State) : Nat := 32 + s.lli.cycleList.length + 16 + 32 + 32 + s.lli.forwardDown.length + 1

/-- R18: the choice is made when the line becomes free. With nothing left to send the line stands free, and what is set or queued
from then on waits for the next DOWNSTREAM_LINE_FREE (log 12). -/
def lineFreeEffect (s : State) : State := pickFrame (pickBound s) s

/-- DOWNSTREAM_LINE_FREE (R18): the next frame chosen; it stands in `lli.line`. -/
def execDownstreamLineFree (s : State) : Host.Outcome State Fault Refusal :=
  .next (lineFreeEffect (take .downstreamLineFree s))

end Sys2Proof.Machine
end

