-- ==== Sys2Proof/Machine/Management.lean ====
section
/-! DEFINITION. Machine/Management.lean: the meanings of the Management Request Processor's own commands (spec/11): PART_RESET, STATUS, LANE_STATUS, PARAM_SET, PARAM_READ, TIME_SET, HALT_ALL, RESUME_ALL, HALT_LINE_ASSERT, HALT_LINE_RELEASE, LANE_CYCLE_EXIT. -/

namespace Sys2Proof.Machine

/-- The Halt Line controller after a part reset: the observed level is the line's (R192, log 8). -/
def resetHalt (others : Bool) : HaltLine := { State.reset.mrp.halt with observed := others, others := others }

/-- A part reset (R182): every block at its reset values. What is not the part's stays: the commands still waiting, whether other
parties assert the Halt Line, and the counter of free values (log 10). -/
def partResetEffect (s : State) : State :=
  { State.reset with
    mrp := { State.reset.mrp with halt := resetHalt s.mrp.halt.others }
    pending := s.pending
    draws := s.draws }

/-- PART_RESET (R182). -/
def execPartReset (s : State) : Host.Outcome State Fault Refusal := .next (partResetEffect s)

/-! ### Reading the part (R191) -/

/-- STATUS's response (R191). -/
def statusResponse (s : State) : List Byte :=
  u8 s.part.code ++ s.mrp.halt.bytes ++ clockBytes s.mrp.clock ++ yesNo s.mrp.clockSet ++ u8 s.slotsInUse ++
    u8 s.mrp.params.slotBudget ++ u8 s.cdp.batch.length ++ u16 s.blu.log.length ++ u16 s.dli.notices.length

/-- STATUS (R191). -/
def execStatus (tag : BitVec 16) (s : State) : Host.Outcome State Fault Refusal :=
  .next (answer (.status tag) tag 1 (fun s => judge [] (fun s => (s, statusResponse s)) s) s)

/-- Whether the inject slot names a lane. -/
def injectOn (l : Lane) (s : State) : Bool :=
  match s.cdp.inject with
  | some r => r.lane == l
  | none => false

/-- LANE_STATUS's response (R191). -/
def laneStatusResponse (l : Lane) (s : State) : List Byte :=
  let m := s.machine l
  yesNo (s.enabled l) ++ u8 m.state.code ++ yesNo m.serviceRequested ++ m.deckBytes ++ optBytes Cycle.bytes m.inFlight ++
    optBytes FaultRecord.bytes m.fault ++ [m.holds.byte] ++ optBytes AutoRequest.bytes (s.auto l) ++
    optBytes Backup.bytes (s.backup l) ++ yesNo (injectOn l s) ++ deliveryBytes (s.delivery l) ++
    optBytes (fun (x : Slot × Team) => u8 (numberOf x.1) ++ u8 x.2.state.code) (s.seatedTeam l) ++
    u8 (s.session l).state.code ++ u8 (s.mode (pairOf l)).code

/-- LANE_STATUS (R191). -/
def execLaneStatus (tag : BitVec 16) (lane : Byte) (s : State) : Host.Outcome State Fault Refusal :=
  .next (answer (.laneStatus tag lane) tag 2
    (fun s => judge [(noLane lane, .badValue)] (fun s => (s, laneStatusResponse (laneAt lane) s)) s) s)

/-! ### Parameters and the clock (R183, R184) -/

/-- Whether a one-byte PARAM_SET field is neither unchanged nor in its range (R183). -/
def fieldOutside (b : Byte) (low high : Nat) : Bool :=
  b != 255 && (decide (b.toNat < low) || decide (high < b.toNat))

/-- A one-byte PARAM_SET field applied: 255 leaves the value unchanged (R26, R183). -/
def fieldOr (b : Byte) (old : Nat) : Nat := if b = 255 then old else b.toNat

/-- The class ranks that three bytes name, none when a class is named twice or a value is no class (R183). -/
def ranksOf (r1 r2 r3 : Byte) : Option (List CycleClass) :=
  match classOf r1.toNat, classOf r2.toNat, classOf r3.toNat with
  | some a, some b, some c => if a = b ∨ a = c ∨ b = c then none else some [a, b, c]
  | _, _, _ => none

/-- The parameter set after a PARAM_SET that passed its table (R183). -/
def Params.updated (p : Params) (budget r1 r2 r3 batchLow cycle ret : Byte) (logHigh : BitVec 16) (safety : Byte) :
    Params :=
  { slotBudget := fieldOr budget p.slotBudget
    ranks := if r1 = 255 then p.ranks else (ranksOf r1 r2 r3).getD p.ranks
    batchLow := fieldOr batchLow p.batchLow
    cycleTimeout := fieldOr cycle p.cycleTimeout
    returnTimeout := fieldOr ret p.returnTimeout
    logHigh := if logHigh = 65535 then p.logHigh else logHigh.toNat
    safetyHalts := if safety = 255 then p.safetyHalts else flagOf safety }

/-- The parameter set replaced. -/
def setParams (p : Params) (s : State) : State := { s with mrp := { s.mrp with params := p } }

/-- The effects R53 gives: new ranks make the preemption check again; a dispatch parameter in the request is followed by a pass
(R53, R65, log 21). -/
def paramSetEffect (p : Params) (dispatch : Bool) (s : State) : State :=
  let s1 := setParams p s
  let s2 := if p.ranks != s.mrp.params.ranks then preemptionCheck s1 else s1
  if dispatch then dispatchPass s2 else s2

/-- PARAM_SET (R183): the response carries the whole parameter set. -/
def execParamSet (tag : BitVec 16) (budget rank1 rank2 rank3 batchLow cycleTimeout returnTimeout : Byte)
    (logHigh : BitVec 16) (safetyHalts : Byte) (s : State) : Host.Outcome State Fault Refusal :=
  .next (answer (.paramSet tag budget rank1 rank2 rank3 batchLow cycleTimeout returnTimeout logHigh safetyHalts) tag 3
    (fun s => judge
      [(fieldOutside budget 1 16 || fieldOutside batchLow 0 15 || fieldOutside cycleTimeout 4 60 ||
          fieldOutside returnTimeout 5 120 || fieldOutside safetyHalts 0 1 ||
          (logHigh != 65535 && (decide (logHigh.toNat < 1) || decide (256 < logHigh.toNat))), .badValue),
        (rank1 != 255 && (ranksOf rank1 rank2 rank3).isNone, .badValue),
        (budget != 255 && decide (budget.toNat < s.slotsInUse), .inUse)]
      (fun s =>
        let p := s.mrp.params.updated budget rank1 rank2 rank3 batchLow cycleTimeout returnTimeout logHigh safetyHalts
        (paramSetEffect p (budget != 255 || rank1 != 255 || batchLow != 255) s, p.bytes)) s) s)

/-- PARAM_READ (R183). -/
def execParamRead (tag : BitVec 16) (s : State) : Host.Outcome State Fault Refusal :=
  .next (answer (.paramRead tag) tag 4 (fun s => judge [] (fun s => (s, s.mrp.params.bytes)) s) s)

/-- TIME_SET's effect (R184, R160): the clock set, then the band check for every PER_TIME session that is not CLOSED, in ascending
lane order. -/
def timeSetEffect (seconds : Nat) (s : State) : State :=
  forLanes bandCheck { s with mrp := { s.mrp with clock := seconds, clockSet := true } }

/-- TIME_SET (R184): the response carries the clock: its value and set flag. -/
def execTimeSet (tag : BitVec 16) (seconds : BitVec 32) (s : State) : Host.Outcome State Fault Refusal :=
  .next (answer (.timeSet tag seconds) tag 5
    (fun s => judge [(decide (86399 < seconds.toNat), .badValue)]
      (fun s =>
        let t := timeSetEffect seconds.toNat s
        (t, clockBytes t.mrp.clock ++ yesNo t.mrp.clockSet)) s) s)

/-! ### The Halt Line (R192 to R195) -/

/-- HALT_ALL (R192): the part drives the line with cause DESK; the response carries the part state, observed level and drive
flag. -/
def execHaltAll (tag : BitVec 16) (s : State) : Host.Outcome State Fault Refusal :=
  .next (answer (.haltAll tag) tag 11
    (fun s => judge [(s.inConfig, .badState)]
      (fun s =>
        let t := driveHalt .desk s
        (t, u8 t.part.code ++ u8 (levelCode t.mrp.halt.observed) ++ yesNo t.mrp.halt.drive)) s) s)

/-- RESUME_ALL's effect (R195): the drive ends, a resume is requested, the line is observed released when no other party asserts
it, and the part returns to RUN when the three conditions hold. -/
def resumeEffect (s : State) : State :=
  tryReturn (setHalt
    { s.mrp.halt with observed := s.mrp.halt.others, drive := false, cause := none, resumeRequested := true } s)

/-- RESUME_ALL (R195): the response carries the part state, the observed level and resume requested. -/
def execResumeAll (tag : BitVec 16) (s : State) : Host.Outcome State Fault Refusal :=
  .next (answer (.resumeAll tag) tag 12
    (fun s => judge [(!s.inHalt, .badState)]
      (fun s =>
        let t := resumeEffect s
        (t, u8 t.part.code ++ u8 (levelCode t.mrp.halt.observed) ++ yesNo t.mrp.halt.resumeRequested)) s) s)

/-- Another party asserts the line (R193): a change of the observed level to asserted in RUN begins a halt. -/
def haltLineAssertEffect (s : State) : State :=
  let s1 := setHalt { s.mrp.halt with observed := true, others := true } s
  if !s.mrp.halt.observed && s.part == .run then haltBegin s1 else s1

/-- HALT_LINE_ASSERT (R193). -/
def execHaltLineAssert (s : State) : Host.Outcome State Fault Refusal :=
  .next (haltLineAssertEffect (take .haltLineAssert s))

/-- The last other party releases the line (R193, R195): it is observed released unless this part drives it. -/
def haltLineReleaseEffect (s : State) : State :=
  tryReturn (setHalt { s.mrp.halt with observed := s.mrp.halt.drive, others := false } s)

/-- HALT_LINE_RELEASE (R193, R195). -/
def execHaltLineRelease (s : State) : Host.Outcome State Fault Refusal :=
  .next (haltLineReleaseEffect (take .haltLineRelease s))

/-- R194: in HALTING the exit that leaves no lane CYCLING or STOPPING brings the part to HALTED, and R195 is tried. -/
def laneCycleExitEffect (s : State) : State :=
  if s.part == .halting && s.slotsInUse == 0 then tryReturn (raisePart .partState (setPart .halted s)) else s

/-- LANE_CYCLE_EXIT (R194). -/
def execLaneCycleExit (l : Lane) (s : State) : Host.Outcome State Fault Refusal :=
  .next (laneCycleExitEffect (take (.laneCycleExit l) s))

end Sys2Proof.Machine
end

