-- ==== Sys2Proof/Machine/Notices.lean ====
section
/-! DEFINITION. Machine/Notices.lean: the meanings of DESK_FRAME_SENT and NOTICE_DRAIN, with the content of every notice (R19, R21). -/

namespace Sys2Proof.Machine

/-- R19: the completion of a sending removes the oldest frame. -/
def deskFrameSentEffect (s : State) : State := { s with dli := { s.dli with tx := s.dli.tx.tail } }

/-- DESK_FRAME_SENT (R19). -/
def execDeskFrameSent (s : State) : Host.Outcome State Fault Refusal :=
  .next (deskFrameSentEffect (take .deskFrameSent s))

/-! ### Contents (R21) -/

/-- CORRECTION's content: the slot, the state of the team it names and that team's seated lane (R122). -/
def correctionContent (l : Lane) (s : State) : List Byte :=
  match s.correction l with
  | some c =>
    c.bytes ++
      (match s.team c.team with
        | some t => u8 t.state.code ++ u8 (numberOf t.seated)
        | none => u8 1)
  | none => []

/-- GAME_END's content: of the team seated on the lane, empty when none is (R106). -/
def gameEndContent (l : Lane) (s : State) : List Byte :=
  match s.seatedTeam l with
  | some (k, t) =>
    u8 (numberOf k) ++ u8 t.state.code ++ optBytes (fun r => u8 r.code) t.state.reason? ++ u8 t.game ++
      listBytes (fun (b : Bowler) => optBytes GameTotal.bytes b.totals.getLast?) t.roster
  | none => []

/-- A refusal record (R24). -/
def refusalBytes (r : Option RefusalRecord) : List Byte :=
  match r with
  | some x => [x.dest] ++ u8 x.reason.code
  | none => []

/-- The warn level of a lane's session. -/
def warnLevel (l : Lane) (s : State) : Nat :=
  match s.terms l with
  | some t => t.warn
  | none => 0

/-- The content of a notice whose subject is a lane, read as it leaves the list (R41, R36, R43, R122, R106, R161, R162, R24). -/
def laneContent (k : LaneNoticeKind) (l : Lane) (s : State) : List Byte :=
  let m := s.machine l
  let x := s.session l
  match k with
  | .machineFault => u8 m.state.code ++ optBytes FaultRecord.bytes m.fault
  | .machineReady => u8 m.state.code ++ m.deckBytes
  | .serviceReady => u8 m.state.code
  | .lateDone => optBytes LateRecord.bytes m.late ++ u8 m.state.code
  | .stray => optBytes StrayRecord.bytes m.stray ++ u8 m.state.code
  | .correction => correctionContent l s
  | .gameEnd => gameEndContent l s
  | .warn => u8 x.state.code ++ optBytes u16 x.credit ++ u8 (warnLevel l s) ++ yesNo x.warned
  | .expired =>
    u8 x.state.code ++ bytes16 x.id ++ optBytes u16 x.credit ++ u16 x.minutes ++ moneyBytes x.accrued.toNat
  | .forwardRefused => refusalBytes (s.frr.laneRefusals.at l)

/-- The content of a notice whose subject is a pair (R145, R138, R147). -/
def pairContent (k : PairNoticeKind) (p : Pair) (s : State) : List Byte :=
  let r := s.pair p
  match k with
  | .pairFault =>
    r.causes.bytes ++ optBytes (fun (e : Transit) => e.bytes ++ yesNo r.oldestOverdue) r.transit.head? ++ u8 r.rack ++
      u8 r.capacity ++ yesNo r.lift
  | .rackHigh => u8 r.rack ++ u8 r.transit.length ++ u8 r.capacity ++ u8 r.almostFull ++ signedByte r.free
  | .unmatched => u8 r.unmatchedArrivals ++ u8 r.unmatchedTakes

/-- The lanes whose sessions hold an owed record (R179). -/
def owedLanes (s : State) : List Lane := allLanes.filter fun l => (s.session l).owed.isSome

/-- The number of held records at or after the fetch position (R172, R179). -/
def unfetched (s : State) : Nat := (s.blu.nextSeq - s.blu.fetchPos).toNat

/-- The content of a notice whose subject is the part (R179, R62, R23, R182, R24). -/
def partContent (k : PartNoticeKind) (s : State) : List Byte :=
  match k with
  | .logHigh =>
    u16 s.blu.log.length ++ u16 s.mrp.params.logHigh ++ u16 (unfetched s) ++ u8 (owedLanes s).length ++
      optBytes (fun l => u8 (numberOf l)) (owedLanes s).head?
  | .batchLow => u8 s.cdp.batch.length ++ u8 s.mrp.params.batchLow
  | .linkError => [s.dli.linkErrors.byte]
  | .rxOverrun => []
  | .partState => u8 s.part.code ++ s.mrp.halt.bytes
  | .forwardRefused => refusalBytes s.frr.partRefusal

/-- The content of a notice (R21). -/
def noticeContent (n : Notice) (s : State) : List Byte :=
  match n with
  | .ofLane k l => laneContent k l s
  | .ofPair k p => pairContent k p s
  | .ofPart k => partContent k s

/-- The NOTICE frame: kind, subject, content (R21, spec/01). -/
def noticeFrame (n : Notice) (s : State) : DeskFrame :=
  ⟨0, 4, u8 n.kindCode ++ u8 n.subjectCode ++ noticeContent n s⟩

/-- What the leaving of a notice changes beside the list: LINK_ERROR empties the link error set (R23), UNMATCHED sets the pair's
counters to 0 (R147). -/
def afterNotice (n : Notice) (s : State) : State :=
  match n with
  | .ofPart .linkError => { s with dli := { s.dli with linkErrors := LinkErrors.empty } }
  | .ofPair .unmatched p => putPair p { s.pair p with unmatchedArrivals := 0, unmatchedTakes := 0 } s
  | _ => s

/-- The pending notice list replaced. -/
def setNotices (ns : List Notice) (s : State) : State := { s with dli := { s.dli with notices := ns } }

/-- R21: the oldest entry leaves and its frame is placed, while the transmit queue holds fewer than 56 frames. -/
def noticeDrainEffect (s : State) : State :=
  match s.dli.notices with
  | n :: rest => if s.transmitOpen then afterNotice n (setNotices rest (placeDesk (noticeFrame n s) s)) else s
  | [] => s

/-- NOTICE_DRAIN (R21). -/
def execNoticeDrain (s : State) : Host.Outcome State Fault Refusal :=
  .next (noticeDrainEffect (take .noticeDrain s))

end Sys2Proof.Machine
end

