-- ==== Sys2Proof/Machine/PairedPlay.lean ====
section
/-! DEFINITION. Machine/PairedPlay.lean: the meaning of PAIR_MODE (spec/06). -/

namespace Sys2Proof.Machine

/-- The slot of the team in WAITING_CROSS on a lane. -/
def waitingSlot (l : Lane) (s : State) : Option Slot :=
  match s.seatedTeam l with
  | some (k, t) => if t.state == .waitingCross then some k else none
  | none => none

/-- The slots that a change of mode releases, the odd lane's first (R112). -/
def releasedSlots (p : Pair) (m : PairMode) (s : State) : List Slot :=
  match s.mode p, m with
  | .paired, .opened => (waitingSlot (oddLane p) s).toList ++ (waitingSlot (evenLane p) s).toList
  | _, _ => []

/-- PAIR_MODE's effect (R111, R112): the mode replaced, and the waiting teams of a PAIRED pair set OPEN released. -/
def pairModeEffect (p : Pair) (m : PairMode) (s : State) : State :=
  match s.mode p, m with
  | .paired, .opened => leavePair p (setMode p .opened s)
  | _, _ => setMode p m s

/-- Whether a lane's session is not RUNNING. -/
def State.notRunning (s : State) (l : Lane) : Bool := (s.session l).state != .running

/-- Whether the team seated on a lane, if any, is not STANDBY. -/
def State.seatsActive (s : State) (l : Lane) : Bool :=
  match s.seatedTeam l with
  | some (_, t) => t.state.reason?.isNone
  | none => false

/-- PAIR_MODE (R111): the response carries the mode before and after and the slots of the teams it released. -/
def execPairMode (tag : BitVec 16) (pair mode : Byte) (s : State) : Host.Outcome State Fault Refusal :=
  .next (answer (.pairMode tag pair mode) tag 45
    (fun s =>
      let p := pairAt pair
      let toPaired := pairModeOf mode.toNat == some .paired
      judge
        [(s.inConfig, .badState), (noPair pair, .badValue), ((pairModeOf mode.toNat).isNone, .badValue),
          (toPaired && (s.notRunning (oddLane p) || s.notRunning (evenLane p)), .badState),
          (toPaired && ((s.terms (oddLane p)).isSome || (s.terms (evenLane p)).isSome), .badState),
          (toPaired && (s.seatsActive (oddLane p) || s.seatsActive (evenLane p)), .badState)]
        (fun s =>
          let m := (pairModeOf mode.toNat).getD .opened
          (pairModeEffect p m s,
            u8 (s.mode p).code ++ u8 m.code ++ listBytes (fun k => u8 (numberOf k)) (releasedSlots p m s))) s) s)

end Sys2Proof.Machine
end

