-- ==== Sys2Proof/Machine/Pinsetter.lean ====
section
/-! DEFINITION. Machine/Pinsetter.lean: the meanings of the Pinsetter Supervisor's commands (spec/02): PINFALL, CYCLE_DONE, MACHINE_FAULT, MACHINE_READY, CYCLE_TIMER_EXPIRY, FAULT_ACK, SERVICE_ENTER, SERVICE_EXIT, LANE_HOLD, LANE_RELEASE. -/

namespace Sys2Proof.Machine

/-- The deck after a PINFALL taken in READY (R30). -/
def LaneMachine.pinfall (m : LaneMachine) (r : Pins) : LaneMachine :=
  { m with deck := if m.deckValid then r &&& m.deck else r, deckValid := true }

/-- R30. -/
def pinfallEffect (l : Lane) (r : Pins) (s : State) : State :=
  if s.actsOnLane l then
    match (s.machine l).state with
    | .ready => putMachine l ((s.machine l).pinfall r) s
    | .service => s
    | _ => recordStray l (.pinfall r) s
  else s

/-- PINFALL at the Pinsetter Supervisor (R30). -/
def execPinfall (l : Lane) (r : Pins) (s : State) : Host.Outcome State Fault Refusal :=
  .next (pinfallEffect l r (take (.pinfall l r) s))

/-- The outcome a completion reports (R34). -/
def CycleResult.outcome : CycleResult → CycleOutcome
  | .ok => .ok
  | .aborted => .aborted

/-- The completion of the cycle in flight (R34): the timer stopped, the deck set, the cycle removed, the report settled, the
machine moved to SERVICE when it was requested and to READY otherwise, unless the report is answered with a handover. A STOP
not yet sent is discarded (R33). -/
def completeCycle (l : Lane) (c : Cycle) (result : CycleResult) (s : State) : State :=
  let m := s.machine l
  let ended := { m.completed c.kind result with timer := none, inFlight := none }
  let s0 := clearStop l s
  if m.serviceRequested then
    raiseLane .serviceReady l (endCycle ⟨l, c, result.outcome, .service⟩ ended ended.inService s0)
  else endCycle ⟨l, c, result.outcome, .ready⟩ ended { ended with state := .ready } s0

/-- R34, R36. -/
def cycleDoneEffect (l : Lane) (tag : Byte) (result : CycleResult) (s : State) : State :=
  let m := s.machine l
  if s.actsOnLane l && m.state != .service then
    match m.inFlight with
    | some c => if m.state.moving && c.tag == tag then completeCycle l c result s else unmatchedCompletion l tag result s
    | none => unmatchedCompletion l tag result s
  else s

/-- CYCLE_DONE (R34, R36). -/
def execCycleDone (l : Lane) (tag : Byte) (result : CycleResult) (s : State) : Host.Outcome State Fault Refusal :=
  .next (cycleDoneEffect l tag result (take (.cycleDone l tag result) s))

/-- The record a fault leaves (R37, R38). -/
def LaneMachine.faulted (m : LaneMachine) (code : Byte) (cls : FaultClass) : LaneMachine :=
  { m with
    state := .fault
    deckValid := false
    serviceRequested := false
    timer := none
    inFlight := none
    fault := some ⟨code, cls, false, false⟩ }

/-- The machine's part of a MACHINE_FAULT (R38): the record, with the cycle end report when a cycle is in flight. -/
def takeFault (l : Lane) (code : Byte) (cls : FaultClass) (s : State) : State :=
  let m := s.machine l
  match m.inFlight with
  | some c =>
    if m.state.moving then
      endCycle ⟨l, c, .fault, .fault⟩ { m with inFlight := none, timer := none } (m.faulted code cls) s
    else putMachine l (m.faulted code cls) s
  | none => putMachine l (m.faulted code cls) s

/-- The Halt Line's part of a MACHINE_FAULT: a SAFETY fault drives it while safety halts centre is yes (R38, R192). -/
def safetyDrive (l : Lane) (cls : FaultClass) (s : State) : State :=
  if cls == .safety && s.mrp.params.safetyHalts then driveHalt (.safety l) s else s

/-- R38. -/
def machineFaultEffect (l : Lane) (code : Byte) (cls : FaultClass) (s : State) : State :=
  if s.actsOnLane l && (s.machine l).state != .service then
    safetyDrive l cls (raiseLane .machineFault l (takeFault l code cls s))
  else s

/-- MACHINE_FAULT (R38). -/
def execMachineFault (l : Lane) (code : Byte) (cls : FaultClass) (s : State) : Host.Outcome State Fault Refusal :=
  .next (machineFaultEffect l code cls (take (.machineFault l code cls) s))

/-- R39. -/
def machineReadyEffect (l : Lane) (s : State) : State :=
  let m := s.machine l
  if s.actsOnLane l then
    match m.state with
    | .off => raiseLane .machineReady l (putMachine l { m with state := .ready, deckValid := false } s)
    | .ready => s
    | .cycling => recordStray l .machineReady s
    | .stopping => recordStray l .machineReady s
    | .fault =>
      match m.fault with
      | some f =>
        if f.deskAcked then recoverLane l s
        else putMachine l { m with fault := some { f with nodeCleared := true } } s
      | none => s
    | .service => s
  else s

/-- MACHINE_READY (R39). -/
def execMachineReady (l : Lane) (s : State) : Host.Outcome State Fault Refusal :=
  .next (machineReadyEffect l (take (.machineReady l) s))

/-- The code of a pinsetter timeout (R7, R37). -/
def timeoutCode : Byte := 255

/-- R37: the late record set, the deck not valid, the report with outcome TIMEOUT, the machine in SERVICE when it was
requested and in FAULT with code 255 otherwise. A lane without a cycle in flight has its timer stopped, and nothing happens. -/
def cycleTimerEffect (l : Lane) (s : State) : State :=
  let m := s.machine l
  match m.inFlight with
  | some c =>
    if m.state.moving then
      let ended := { m with late := some ⟨c.tag, none⟩, deckValid := false, inFlight := none, timer := none }
      if m.serviceRequested then
        raiseLane .serviceReady l (endCycle ⟨l, c, .timeout, .service⟩ ended ended.inService s)
      else
        raiseLane .machineFault l
          (endCycle ⟨l, c, .timeout, .fault⟩ ended (ended.faulted timeoutCode .normal) s)
    else s
  | none => s

/-- CYCLE_TIMER_EXPIRY (R37). -/
def execCycleTimerExpiry (l : Lane) (s : State) : Host.Outcome State Fault Refusal :=
  .next (cycleTimerEffect l (take (.cycleTimerExpiry l) s))

/-! ### Requests -/

/-- The rows "the part is in CONFIG", "lane is outside 1 to 32", "the lane is disabled". -/
def laneRows (lane : Byte) (s : State) : List (Bool × Result) :=
  [(s.inConfig, .badState), (noLane lane, .badValue), (!s.enabled (laneAt lane), .badState)]

/-- FAULT_ACK's effect (R40). -/
def faultAckEffect (l : Lane) (s : State) : State :=
  let m := s.machine l
  match m.fault with
  | some f => if f.nodeCleared then recoverLane l s else putMachine l { m with fault := some { f with deskAcked := true } } s
  | none => s

/-- FAULT_ACK (R40): the response carries the machine state and the fault record if still present. -/
def execFaultAck (tag : BitVec 16) (lane : Byte) (s : State) : Host.Outcome State Fault Refusal :=
  .next (answer (.faultAck tag lane) tag 24
    (fun s => judge (laneRows lane s ++ [((s.machine (laneAt lane)).state != .fault, .badState)])
      (fun s =>
        let t := faultAckEffect (laneAt lane) s
        let m := t.machine (laneAt lane)
        (t, u8 m.state.code ++ optBytes FaultRecord.bytes m.fault)) s) s)

/-- SERVICE_ENTER's effect (R42). -/
def serviceEnterEffect (l : Lane) (s : State) : State :=
  let m := s.machine l
  match m.state with
  | .ready => raiseLane .serviceReady l (putMachine l m.inService s)
  | .fault => raiseLane .serviceReady l (withdrawLane .machineFault l (putMachine l m.inService s))
  | .cycling => putMachine l { m with serviceRequested := true } s
  | .stopping => putMachine l { m with serviceRequested := true } s
  | .off => s
  | .service => s

/-- SERVICE_ENTER (R42): the response carries the machine state and service requested. -/
def execServiceEnter (tag : BitVec 16) (lane : Byte) (s : State) : Host.Outcome State Fault Refusal :=
  .next (answer (.serviceEnter tag lane) tag 25
    (fun s => judge (laneRows lane s ++
        [(s.inHalt, .halted), ((s.machine (laneAt lane)).state == .off, .badState),
          ((s.machine (laneAt lane)).state == .service, .badState)])
      (fun s =>
        let t := serviceEnterEffect (laneAt lane) s
        let m := t.machine (laneAt lane)
        (t, u8 m.state.code ++ yesNo m.serviceRequested)) s) s)

/-- SERVICE_EXIT's effect (R44). -/
def serviceExitEffect (l : Lane) (s : State) : State :=
  let m := s.machine l
  if m.state == .service then
    withdrawLane .serviceReady l (setProbeMark l true (putMachine l { m with state := .off, deckValid := false } s))
  else putMachine l { m with serviceRequested := false } s

/-- SERVICE_EXIT (R44): the response carries the machine state. -/
def execServiceExit (tag : BitVec 16) (lane : Byte) (s : State) : Host.Outcome State Fault Refusal :=
  .next (answer (.serviceExit tag lane) tag 26
    (fun s =>
      let m := s.machine (laneAt lane)
      judge (laneRows lane s ++ [(m.state != .service && !(m.state.moving && m.serviceRequested), .badState)])
        (fun s =>
          let t := serviceExitEffect (laneAt lane) s
          (t, u8 (t.machine (laneAt lane)).state.code)) s) s)

/-- LANE_HOLD (R50): DESK is claimed; the response carries the hold set. -/
def execLaneHold (tag : BitVec 16) (lane : Byte) (s : State) : Host.Outcome State Fault Refusal :=
  .next (answer (.laneHold tag lane) tag 27
    (fun s => judge (laneRows lane s)
      (fun s =>
        let t := claim .desk (laneAt lane) s
        (t, [(t.holds (laneAt lane)).byte])) s) s)

/-- LANE_RELEASE (R50): DESK is released; the response carries the hold set. -/
def execLaneRelease (tag : BitVec 16) (lane : Byte) (s : State) : Host.Outcome State Fault Refusal :=
  .next (answer (.laneRelease tag lane) tag 28
    (fun s => judge (laneRows lane s)
      (fun s =>
        let t := release .desk (laneAt lane) s
        (t, [(t.holds (laneAt lane)).byte])) s) s)

end Sys2Proof.Machine
end

