-- ==== Sys2Proof/Machine/Sessions.lean ====
section
/-! DEFINITION. Machine/Sessions.lean: the meanings of the session and tariff commands (spec/09): BALL_PASS at the Billing Unit, GATE_EVALUATION, CLOCK_ADVANCE, TARIFF_LOAD, TARIFF_READ, SESSION_OPEN, SESSION_TOPUP, SESSION_CLOSE, SESSION_READ. -/

namespace Sys2Proof.Machine

/-- The ON_FIRST_BALL trigger (R156): an ARMED session with that trigger starts. -/
def ballPassBillingEffect (l : Lane) (s : State) : State :=
  if s.actsOnLane l then
    match s.terms l with
    | some t => if t.trigger == .onFirstBall then startSession l s else s
    | none => s
  else s

/-- BALL_PASS at the Billing Unit (R156). -/
def execBallPassBilling (l : Lane) (s : State) : Host.Outcome State Fault Refusal :=
  .next (ballPassBillingEffect l (take (.ballPassBilling l) s))

/-- GATE_EVALUATION (R157): the gate of the lane's PER_TIME session evaluated. -/
def execGateEvaluation (l : Lane) (s : State) : Host.Outcome State Fault Refusal :=
  .next (evaluateGate l (take (.gateEvaluation l) s))

/-! ### The clock (R159, R184) and the timers it counts (log 7) -/

/-- A lane machine record one second on: a running cycle timer counts down (R32, log 7). -/
def LaneMachine.second (m : LaneMachine) : LaneMachine := { m with timer := m.timer.map (· - 1) }

/-- A pair record one second on: a running overdue timer counts down (R140, log 7). -/
def PairRecord.second (r : PairRecord) : PairRecord := { r with timer := r.timer.map (· - 1) }

/-- Every running timer one second on (R32, R140, log 7). -/
def countTimers (s : State) : State :=
  { s with psv := Table.map LaneMachine.second s.psv, brm := Table.map PairRecord.second s.brm }

/-- The clock's value replaced (R184). -/
def setClock (seconds : Nat) (set : Bool) (s : State) : State :=
  { s with mrp := { s.mrp with clock := seconds, clockSet := set } }

/-- One second: the clock advances, wrapping from 86399 to 0 (R184), the timers count, and the Billing Unit meters every lane in
ascending order (R159). -/
def clockAdvanceEffect (s : State) : State :=
  forLanes meterSecond (countTimers (setClock (if s.mrp.clock + 1 < 86400 then s.mrp.clock + 1 else 0) s.mrp.clockSet s))

/-- CLOCK_ADVANCE (R159, R184). -/
def execClockAdvance (s : State) : Host.Outcome State Fault Refusal :=
  .next (clockAdvanceEffect (take .clockAdvance s))

/-! ### Tariffs (R151 to R153) -/

/-- Whether start minutes lie in range and ascend strictly (R151, R152). -/
def startsAscend : List WireBand → Bool
  | [] => true
  | [b] => decide (b.start.toNat ≤ 1439)
  | b :: c :: rest =>
    decide (b.start.toNat ≤ 1439) && decide (b.start.toNat < c.start.toNat) && startsAscend (c :: rest)

/-- The warn level a TARIFF_LOAD field names: 255 stands for 5 (R152). -/
def warnOf (field : Byte) : Nat := if field = 255 then 5 else field.toNat

/-- The timed terms a TARIFF_LOAD names, none when one is outside its range (R151, R152). -/
def timedTerms (trigger gate warn rounding : Byte) : Option TimedTerms :=
  match triggerOf trigger.toNat, gateOf gate.toNat with
  | some t, some g =>
    if warnOf warn ≤ 99 ∧ 1 ≤ rounding.toNat ∧ rounding.toNat ≤ 60 then
      some ⟨t, g, warnOf warn, rounding.toNat⟩
    else none
  | _, _ => none

/-- The tariff a TARIFF_LOAD that passed its table writes: basis PER_GAME 1, PER_TIME 2 (R152, R151). -/
def loadedTariff (basis : Byte) (bands : List WireBand) (trigger gate warn rounding : Byte) : Tariff :=
  { bands := bands.map fun b => ⟨b.start.toNat, b.price.toNat⟩
    timed := if basis = 2 then timedTerms trigger gate warn rounding else none }

/-- A tariff replaced (R151). -/
def setTariff (i : TariffIndex) (t : Option Tariff) (s : State) : State :=
  { s with blu := { s.blu with tariffs := s.blu.tariffs.put i t } }

/-- Whether a TARIFF_LOAD's first band starts at a minute other than 0 (R152). -/
def firstStartNotZero (bands : List WireBand) : Bool :=
  match bands with
  | b :: _ => b.start != 0
  | [] => true

/-- TARIFF_LOAD (R152): the response carries the index and the tariff as loaded. -/
def execTariffLoad (tag : BitVec 16) (index basis count : Byte) (bands : List WireBand)
    (trigger gate warn rounding : Byte) (s : State) : Host.Outcome State Fault Refusal :=
  .next (answer (.tariffLoad tag index basis count bands trigger gate warn rounding) tag 64
    (fun s =>
      let t := loadedTariff basis bands trigger gate warn rounding
      judge
        [(decide (15 < index.toNat), .badValue), (basis != 1 && basis != 2, .badValue),
          (decide (count.toNat < 1) || decide (4 < count.toNat), .badValue), (firstStartNotZero bands, .badValue),
          (!startsAscend bands, .badValue),
          (basis == 2 && (timedTerms trigger gate warn rounding).isNone, .badValue),
          (decide (0 < s.tariffUsers (tariffAt index)), .inUse)]
        (fun s => (setTariff (tariffAt index) (some t) s, [index] ++ t.bytes)) s) s)

/-- TARIFF_READ's response: whether loaded, its fields, the band in force, and the sessions that name it (R153, log 16). -/
def tariffReadResponse (i : TariffIndex) (s : State) : List Byte :=
  optBytes Tariff.bytes (s.tariff i) ++ optBytes (fun t => u8 (t.bandAt s.mrp.clock)) (s.tariff i) ++
    u8 (s.tariffUsers i)

/-- TARIFF_READ (R153). -/
def execTariffRead (tag : BitVec 16) (index : Byte) (s : State) : Host.Outcome State Fault Refusal :=
  .next (answer (.tariffRead tag index) tag 65
    (fun s => judge [(decide (15 < index.toNat), .badValue)]
      (fun s => (s, tariffReadResponse (tariffAt index) s)) s) s)

/-! ### Sessions (R155, R163, R167 to R169) -/

/-- The credit a SESSION_OPEN field names: 65535 stands for absent (R155). -/
def creditOf (field : BitVec 16) : Option Nat := if field = 65535 then none else some field.toNat

/-- A session's record as SESSION_OPEN leaves it (R155, Table 9-1). -/
def openedSession (id : BitVec 16) (i : TariffIndex) (credit : Option Nat) (timed : Option TimedTerms)
    (m : LaneMachine) : Session :=
  match timed with
  | none => { Session.reset with state := .running, id := id, tariff := i, credit := credit }
  | some t =>
    Session.settleCauses
      { Session.reset with
        state := if t.trigger == .onOpen then .running else .armed
        id := id
        tariff := i
        credit := credit
        warned := match credit with
          | some c => decide (c ≤ t.warn)
          | none => false
        causeGate := gateCondition t.gate m }

/-- The credit rows of R155: a PER_GAME credit above 999, a PER_TIME credit of 0 or above 9999. -/
def creditRefused (t : Option Tariff) (credit : Option Nat) : Bool :=
  match t, credit with
  | some t, some c => if t.timed.isNone then decide (999 < c) else decide (c = 0) || decide (9999 < c)
  | _, _ => false

/-- SESSION_OPEN (R155): the response carries the session's state. -/
def execSessionOpen (tag : BitVec 16) (lane : Byte) (session : BitVec 16) (tariff : Byte) (credit : BitVec 16)
    (s : State) : Host.Outcome State Fault Refusal :=
  .next (answer (.sessionOpen tag lane session tariff credit) tag 66
    (fun s =>
      let l := laneAt lane
      let i := tariffAt tariff
      judge
        [(s.inConfig, .badState), (noLane lane, .badValue), (decide (15 < tariff.toNat), .badValue),
          (!s.enabled l, .badState), (!s.sessionClosed l, .badState), ((s.tariff i).isNone, .badState),
          (!s.mrp.clockSet, .badState), (creditRefused (s.tariff i) (creditOf credit), .badValue)]
        (fun s =>
          let x := openedSession session i (creditOf credit) ((s.tariff i).bind (·.timed)) (s.machine l)
          (putSession l x s, u8 x.state.code)) s) s)

/-- The limit of a session's credit: 999 for PER_GAME, 9999 for PER_TIME (R154, R163). -/
def State.creditLimit (s : State) (l : Lane) : Nat := if (s.terms l).isSome then 9999 else 999

/-- SESSION_TOPUP's first step: credit plus amount, limited (R163). -/
def toppedCredit (l : Lane) (amount : Nat) (s : State) : Nat :=
  min (((s.session l).credit.getD 0) + amount) (s.creditLimit l)

/-- R163 step 2: a PER_TIME session with credit above the warn level is no longer warned. -/
def unwarn (l : Lane) (s : State) : State :=
  match s.terms l, (s.session l).credit with
  | some t, some c =>
    if t.warn < c then withdrawLane .warn l (putSession l { s.session l with warned := false } s) else s
  | _, _ => s

/-- R163 step 3: an EXPIRED session runs again, or is SUSPENDED by its causes. -/
def reviveSession (l : Lane) (s : State) : State :=
  let x := s.session l
  if x.state == .expired then
    withdrawLane .expired l (release .credit l
      (putSession l (Session.settleCauses { x with state := .running, seconds := 0 }) s))
  else s

/-- SESSION_TOPUP's effect (R163). -/
def topupEffect (l : Lane) (amount : Nat) (s : State) : State :=
  reviveSession l (unwarn l (putSession l { s.session l with credit := some (toppedCredit l amount s) } s))

/-- SESSION_TOPUP (R163): the response carries the credit, the state, warned and the part of the amount not kept. -/
def execSessionTopup (tag : BitVec 16) (lane : Byte) (amount : BitVec 16) (s : State) :
    Host.Outcome State Fault Refusal :=
  .next (answer (.sessionTopup tag lane amount) tag 67
    (fun s =>
      let l := laneAt lane
      judge
        [(s.inConfig, .badState), (noLane lane, .badValue),
          (decide (amount.toNat < 1) || decide (9999 < amount.toNat), .badValue), (s.sessionClosed l, .badState),
          ((s.session l).credit.isNone, .badValue)]
        (fun s =>
          let t := topupEffect l amount.toNat s
          let x := t.session l
          (t, optBytes u16 x.credit ++ u8 x.state.code ++ yesNo x.warned ++
            u16 (((s.session l).credit.getD 0) + amount.toNat - toppedCredit l amount.toNat s))) s) s)

/-- Whether SESSION_CLOSE charges the partial minute (R168 step 1). -/
def partialDue (l : Lane) (s : State) : Bool :=
  let x := s.session l
  match s.terms l with
  | some t => decide (0 < x.seconds) && decide (t.rounding ≤ x.seconds) && x.state != .expired
  | none => false

/-- Whether SESSION_CLOSE makes a final TIME record (R167). -/
def finalTimeDue (l : Lane) (s : State) : Bool :=
  (s.terms l).isSome && (decide (0 < (s.session l).segMinutes) || partialDue l s)

/-- The log places a close needs (R167). -/
def closePlaces (l : Lane) (s : State) : Nat := if finalTimeDue l s then 2 else 1

/-- R168 step 1: the partial minute charged when it is due, credit decreasing by one; the seconds become 0. -/
def chargePartial (l : Lane) (s : State) : State :=
  let s1 :=
    if partialDue l s then
      let t := chargeMinute l s
      putSession l { t.session l with credit := (t.session l).credit.map (· - 1), partialCharged := true } t
    else s
  if (s.terms l).isSome then putSession l { s1.session l with seconds := 0 } s1 else s1

/-- R168 step 2: the last segment closed when it has minutes; a PER_GAME session is not metered and has none (R159). -/
def closeLastSegment (l : Lane) (s : State) : State :=
  if (s.terms l).isSome && decide (0 < (s.session l).segMinutes) then closeSegment l s else s

/-- R168 step 3: the CLOSE record. -/
def makeClose (l : Lane) (s : State) : State :=
  let x := s.session l
  makeCharge l (.close x.games x.minutes x.accrued x.partialCharged) s

/-- R168 step 4: the state CLOSED, the suspend causes empty, CREDIT released, WARN and EXPIRED withdrawn. -/
def sealSession (l : Lane) (s : State) : State :=
  withdrawLane .expired l (withdrawLane .warn l (release .credit l
    (putSession l { s.session l with state := .closed, causeGate := false, causeLogFull := false } s)))

/-- SESSION_CLOSE's effect (R168). -/
def sessionCloseEffect (l : Lane) (s : State) : State :=
  sealSession l (makeClose l (closeLastSegment l (chargePartial l s)))

/-- SESSION_CLOSE (R167, R168): the response carries the record as closed and the sequence number of the CLOSE record. -/
def execSessionClose (tag : BitVec 16) (lane : Byte) (s : State) : Host.Outcome State Fault Refusal :=
  .next (answer (.sessionClose tag lane) tag 68
    (fun s =>
      let l := laneAt lane
      judge
        [(s.inConfig, .badState), (noLane lane, .badValue), (s.sessionClosed l, .badState), (s.homesTeam l, .inUse),
          ((s.session l).owed.isSome, .logFull),
          (decide (Config.logPlaces - s.blu.log.length < closePlaces l s), .logFull)]
        (fun s =>
          let t := sessionCloseEffect l s
          let x := t.session l
          (t, optBytes u16 x.credit ++ u16 x.minutes ++ u16 x.games ++ moneyBytes x.accrued.toNat ++
            yesNo x.partialCharged ++ bytes16 (t.blu.nextSeq - 1))) s) s)

/-- Every field of R154 as SESSION_READ returns it, the owed record as its kind and amount (R169, log 16). -/
def Session.bytes (x : Session) : List Byte :=
  u8 x.state.code ++ bytes16 x.id ++ u8 x.tariff.val ++ optBytes u16 x.credit ++ u8 x.reserved ++ u8 x.seconds ++
    u16 x.segMinutes ++ optBytes u8 x.segBand ++ moneyBytes x.segAmount ++ moneyBytes x.accrued.toNat ++ u16 x.games ++
    u16 x.minutes ++ yesNo x.partialCharged ++
    optBytes (fun (c : Charge) => u8 c.body.code ++ moneyBytes c.body.amount.toNat) x.owed ++ yesNo x.warned ++
    [x.causesByte]

/-- The running cost of a PER_TIME session: the accrued amount plus the segment amount (R169, log 11). -/
def runningCost (l : Lane) (s : State) : BitVec 48 :=
  addAmount s.draws (s.session l).accrued (BitVec.ofNat 48 (s.session l).segAmount)

/-- Whether reading a session's running cost gives a sum that fits 48 bits (log 11). -/
def runningCostFits (l : Lane) (s : State) : Bool :=
  (s.terms l).isNone || amountFits (s.session l).accrued (BitVec.ofNat 48 (s.session l).segAmount)

/-- SESSION_READ's response (R169). The basis, the band in force and whether a running cost is shown are those of the tariff that
the record's index names as it stands now; a CLOSED record's tariff may have been loaded anew since the close (log 28). -/
def sessionReadResponse (l : Lane) (s : State) : List Byte :=
  (s.session l).bytes ++ optBytes (fun (t : Tariff) => u8 (if t.timed.isSome then 2 else 1)) (s.sessionTariff l) ++
    optBytes (fun (t : Tariff) => u8 (t.bandAt s.mrp.clock)) (s.sessionTariff l) ++
    optBytes (fun (_ : TimedTerms) => moneyBytes (runningCost l s).toNat) (s.terms l)

/-- SESSION_READ (R169). -/
def execSessionRead (tag : BitVec 16) (lane : Byte) (s : State) : Host.Outcome State Fault Refusal :=
  .next (answer (.sessionRead tag lane) tag 69
    (fun s => judge [(noLane lane, .badValue)]
      (fun s => (drawUnless (runningCostFits (laneAt lane) s) s, sessionReadResponse (laneAt lane) s)) s) s)

end Sys2Proof.Machine
end

