-- ==== Sys2Proof/Machine/Teams.lean ====
section
/-! DEFINITION. Machine/Teams.lean: the meanings of the team commands (spec/05): START_GAME, TEAM_LOAD, TEAM_UNLOAD, TEAM_READ, GAME_START. -/

namespace Sys2Proof.Machine

/-- R99: the STANDBY team seated on the lane is tried for admission. -/
def startGameEffect (l : Lane) (s : State) : State :=
  if s.actsOnLane l then
    match s.seatedTeam l with
    | some (k, t) => if t.state.reason?.isSome then tryAdmission k s else s
    | none => s
  else s

/-- START_GAME from a console (R99). -/
def execStartGame (l : Lane) (s : State) : Host.Outcome State Fault Refusal :=
  .next (startGameEffect l (take (.startGame l) s))

/-! ### TEAM_LOAD -/

/-- A name tag that R91 refuses: empty, longer than 12 characters, or with a character outside 32 to 126. -/
def nameRefused (name : List Byte) : Bool :=
  name.isEmpty || decide (12 < name.length) || name.any fun c => decide (c.toNat < 32) || decide (126 < c.toNat)

/-- The context an accepted TEAM_LOAD fills (R92). -/
def loadedTeam (home : Lane) (auto : Bool) (names : List (List Byte)) : Team :=
  { state := .standby .new
    home := home
    seated := home
    roster := names.map fun n => ⟨n, [], Table.fill 10 (FrameRecord.ofBalls [])⟩
    bowler := 1
    frame := 1
    ball := 1
    target := fullRack
    game := 0
    autoContinue := auto
    reservation := none
    inProgress := false
    recent := none }

/-- TEAM_LOAD's effect (R92): the context filled, the display stale, admission tried when auto-continue is yes. -/
def teamLoadEffect (k : Slot) (home : Lane) (auto : Bool) (names : List (List Byte)) (s : State) : State :=
  let s1 := markStale home (setTeam k (some (loadedTeam home auto names)) s)
  if auto then tryAdmission k s1 else s1

/-- A team's state and standby reason (R92, R94). -/
def TeamState.bytes (x : TeamState) : List Byte := u8 x.code ++ optBytes (fun r => u8 r.code) x.reason?

/-- The state and game number of a context as TEAM_LOAD and GAME_START return them. -/
def teamLoadResponse (k : Slot) (s : State) : List Byte :=
  match s.team k with
  | some t => t.state.bytes ++ u8 t.game
  | none => []

/-- TEAM_LOAD (R91): the response carries the state, the standby reason and the game number. -/
def execTeamLoad (tag : BitVec 16) (slot home auto size : Byte) (names : List (List Byte)) (s : State) :
    Host.Outcome State Fault Refusal :=
  .next (answer (.teamLoad tag slot home auto size names) tag 41
    (fun s => judge
      [(s.inConfig, .badState), (noSlot slot, .badValue), (noLane home, .badValue), (notFlag auto, .badValue),
        (decide (size.toNat < 1) || decide (6 < size.toNat), .badValue), (names.any nameRefused, .badValue),
        ((s.team (slotAt slot)).isSome, .inUse), (!s.enabled (laneAt home), .badState),
        ((s.seatedTeam (laneAt home)).isSome, .inUse)]
      (fun s =>
        let t := teamLoadEffect (slotAt slot) (laneAt home) (flagOf auto) names s
        (t, teamLoadResponse (slotAt slot) t)) s) s)

/-! ### TEAM_UNLOAD -/

/-- Steps 1 to 4 of R93 with the emptying of the correction slots (R124) and the GAME_END of a waiting team whose tenth frame
has ended (R113). -/
def unloadTeam (k : Slot) (t : Team) (s : State) : State :=
  let s1 := if t.inProgress then discardGame k s else s
  let s2 := markStale t.seated (setTeam k none (setDelivery t.seated none s1))
  let s3 := emptyCorrections (fun c => c.team == k) s2
  if t.state == .waitingCross && !t.inProgress then raiseLane .gameEnd t.seated s3 else s3

/-- TEAM_UNLOAD's effect (R93, R118): the unload, then the partner's cross check. -/
def teamUnloadEffect (k : Slot) (t : Team) (s : State) : State := recheckPartner t.seated (unloadTeam k t s)

/-- TEAM_UNLOAD (R93, R118): the response carries the slot, whether a game was discarded, whether a cross was taken and the
slot of the team that crossed. -/
def execTeamUnload (tag : BitVec 16) (slot : Byte) (s : State) : Host.Outcome State Fault Refusal :=
  .next (answer (.teamUnload tag slot) tag 42
    (fun s => judge
      [(s.inConfig, .badState), (noSlot slot, .badValue), ((s.team (slotAt slot)).isNone, .badState)]
      (fun s =>
        match s.team (slotAt slot) with
        | some t =>
          (teamUnloadEffect (slotAt slot) t s,
            [slot] ++ yesNo t.inProgress ++ crossBytes (waitingPartner t.seated (unloadTeam (slotAt slot) t s)))
        | none => (s, [])) s) s)

/-! ### TEAM_READ and GAME_START -/

/-- The context header TEAM_READ returns (R94). -/
def Team.headerBytes (t : Team) : List Byte :=
  u8 t.state.code ++ u8 (numberOf t.home) ++ u8 (numberOf t.seated) ++ u8 t.roster.length ++ u8 t.bowler ++
    u8 t.frame ++ u8 t.ball ++ pinBytes t.target ++ u8 t.game ++ yesNo t.autoContinue ++
    optBytes (fun r => u8 r.code) t.state.reason? ++ yesNo t.inProgress ++ optBytes Reservation.bytes t.reservation

/-- The bowler's record TEAM_READ returns for a bowler of 1 or above (R94). -/
def Team.bowlerBytes (t : Team) (bowler : Nat) : List Byte :=
  if bowler = 0 then []
  else
    match t.roster[bowler - 1]? with
    | some b => b.bytes
    | none => []

/-- What TEAM_READ returns of a slot: an EMPTY context its state alone (R94, log 16). -/
def teamReadResponse (k : Slot) (bowler : Nat) (s : State) : List Byte :=
  match s.team k with
  | some t => t.headerBytes ++ t.bowlerBytes bowler
  | none => u8 1

/-- TEAM_READ (R94). -/
def execTeamRead (tag : BitVec 16) (slot bowler : Byte) (s : State) : Host.Outcome State Fault Refusal :=
  .next (answer (.teamRead tag slot bowler) tag 43
    (fun s => judge
      [(s.inConfig, .badState), (noSlot slot, .badValue), (decide (6 < bowler.toNat), .badValue),
        (match s.team (slotAt slot) with
          | some t => decide (t.roster.length < bowler.toNat)
          | none => false, .badValue)]
      (fun s => (s, teamReadResponse (slotAt slot) bowler.toNat s)) s) s)

/-- GAME_START's response: ADMITTED 1, or REFUSED 2 with its reason, then the state and game number (R98, log 15). -/
def gameStartResponse (k : Slot) (s : State) : List Byte :=
  match s.team k with
  | some t =>
    (match t.state.reason? with
      | some r => u8 2 ++ (1 :: u8 r.code)
      | none => u8 1 ++ [0]) ++ u8 t.state.code ++ u8 t.game
  | none => []

/-- GAME_START (R98). -/
def execGameStart (tag : BitVec 16) (slot : Byte) (s : State) : Host.Outcome State Fault Refusal :=
  .next (answer (.gameStart tag slot) tag 44
    (fun s => judge
      [(s.inConfig, .badState), (noSlot slot, .badValue), ((s.team (slotAt slot)).isNone, .badState),
        (match s.team (slotAt slot) with
          | some t => t.state.reason?.isNone
          | none => false, .badState)]
      (fun s =>
        let t := tryAdmission (slotAt slot) s
        (t, gameStartResponse (slotAt slot) t)) s) s)

end Sys2Proof.Machine
end

