-- ==== Sys2Proof/Machine/Traffic.lean ====
section
/-! DEFINITION. Machine/Traffic.lean: the meanings of the arrivals and of the Lane Map requests (spec/01): LANE_FRAME, DESK_FRAME_RECEIVE, DESK_CONTENT, DESK_LANE_FRAME, UNKNOWN_REQUEST_CODE, LANE_MAP_LOAD, PAIR_MAP_LOAD, DISPOSITION_LOAD. -/

namespace Sys2Proof.Machine

/-! ### Upstream frames (R5, R6, R11) -/

/-- The disposition applied to a frame that reaches the last row of R6 (R11). -/
def applyDisposition (n : Node) (f : LaneFrame) (s : State) : State :=
  match s.disposition n.role f.kind.toNat with
  | .consume => deliver n f s
  | .consumeCopy => deliver n f (offerCopy f s)
  | .forward => offerCopy f s
  | .drop => s

/-- Whether a node is the PS node of a lane in SERVICE (R6, third row). -/
def inServiceNode (n : Node) (s : State) : Bool :=
  match n with
  | .ps l => (s.machine l).state == .service
  | _ => false

/-- The classification of a checked frame: the rows of R6. -/
def classify (f : LaneFrame) (s : State) : State :=
  if s.inConfig then offerCopy f s
  else
    match resolveUp f.addr s with
    | none => offerCopy f s
    | some n =>
      if inServiceNode n s then offerCopy f s
      else if actedOn n.role f.kind.toNat && (nodeEvents n f s).isNone then linkError .laneContent (offerCopy f s)
      else applyDisposition n f s

/-- R5: a frame that fails its check is discarded and recorded; a checked frame is classified. -/
def laneFrameEffect (bytes : List Byte) (s : State) : State :=
  match laneFrameOfBytes bytes with
  | some f => classify f s
  | none => linkError .laneCheck s

/-- LANE_FRAME (R5, R6). -/
def execLaneFrame (bytes : List Byte) (s : State) : Host.Outcome State Fault Refusal :=
  .next (laneFrameEffect bytes (take (.laneFrame bytes) s))

/-! ### Frames from the desk (R12 to R14) -/

/-- The desk receive queue with a frame appended, or RX_OVERRUN raised when it holds 16 (R12). -/
def receiveDesk (f : DeskFrame) (s : State) : State :=
  if s.dli.rx.length < Config.deskReceivePlaces then { s with dli := { s.dli with rx := s.dli.rx ++ [f] } }
  else raisePart .rxOverrun s

/-- R12. -/
def deskFrameReceiveEffect (bytes : List Byte) (s : State) : State :=
  match deskFrameOfBytes bytes with
  | some f => receiveDesk f s
  | none => linkError .deskCheck s

/-- DESK_FRAME_RECEIVE (R12). -/
def execDeskFrameReceive (bytes : List Byte) (s : State) : Host.Outcome State Fault Refusal :=
  .next (deskFrameReceiveEffect bytes (take (.deskFrameReceive bytes) s))

/-- DESK_CONTENT (R13, last row): the frame discarded, DESK_CONTENT added, LINK_ERROR raised. -/
def execDeskContent (f : DeskFrame) (s : State) : Host.Outcome State Fault Refusal :=
  .next (linkError .deskContent (takeHead (.deskContent f) s))

/-- The reason the pass-through filter refuses a LANE frame, none when it is accepted: the table of R14. -/
def filterRefusal (dest kind : Byte) (s : State) : Option RefusalReason :=
  let full := decide (Config.forwardDownPlaces ≤ s.lli.forwardDown.length)
  if s.inConfig then (if full then some .queueFull else none)
  else
    match resolveDown dest s with
    | none => some .unknownDest
    | some n =>
      if dest = 127 then some .unknownDest
      else
        match n with
        | .ps l => (psRefusal l s).or (if full then some .queueFull else none)
        | .br _ => if kind = 19 then some .partOwned else if full then some .queueFull else none
        | _ => if full then some .queueFull else none

/-- R14: the frame appended to the forward-down queue, or refused. -/
def deskLaneFrameEffect (dest kind : Byte) (payload : List Byte) (s : State) : State :=
  match filterRefusal dest kind s with
  | some r => refuse dest r s
  | none => setLink { s.lli with forwardDown := s.lli.forwardDown ++ [⟨dest, kind, payload⟩] } s

/-- DESK_LANE_FRAME (R14). -/
def execDeskLaneFrame (dest kind : Byte) (payload : List Byte) (s : State) : Host.Outcome State Fault Refusal :=
  .next (deskLaneFrameEffect dest kind payload (takeHead (.deskLaneFrame dest kind payload) s))

/-- The tag and code of the response to a request that fails the form check: its own, or 0 and 0 for a payload shorter than three
bytes (R181). -/
def formErrorHeader (payload : List Byte) : BitVec 16 × Nat :=
  match payload with
  | t1 :: t0 :: code :: _ => (word16 t1 t0, code.toNat)
  | _ => (0, 0)

/-- UNKNOWN_REQUEST_CODE: a request too short, of a code not in the catalogue or of a wrong length is answered BAD_REQUEST
(R181). -/
def execUnknownRequestCode (payload : List Byte) (s : State) : Host.Outcome State Fault Refusal :=
  .next (answer (.unknownRequestCode payload) (formErrorHeader payload).1 (formErrorHeader payload).2
    (fun s => (s, .badRequest, [])) s)

/-! ### The Lane Map and the dispositions (R2, R3, R10) -/

/-- A lane entry replaced (R2). -/
def setLaneEntry (l : Lane) (e : LaneEntry) (s : State) : State :=
  { s with frr := { s.frr with lanes := s.frr.lanes.put l e } }

/-- A pair entry replaced (R3). -/
def setPairEntry (p : Pair) (e : PairEntry) (s : State) : State :=
  { s with frr := { s.frr with pairs := s.frr.pairs.put p e } }

/-- Whether an address field is refused: 127 or above (R2, R3). -/
def addressRefused (b : Byte) : Bool := decide (127 ≤ b.toNat)

/-- LANE_MAP_LOAD (R2): the whole entry replaced. -/
def execLaneMapLoad (tag : BitVec 16) (lane enabled ps fl cn : Byte) (s : State) : Host.Outcome State Fault Refusal :=
  .next (answer (.laneMapLoad tag lane enabled ps fl cn) tag 16
    (fun s => judge
      [(!s.inConfig, .badState), (noLane lane, .badValue), (notFlag enabled, .badValue),
        (addressRefused ps || addressRefused fl || addressRefused cn, .badValue)]
      (fun s => (setLaneEntry (laneAt lane) ⟨flagOf enabled, addressOf ps, addressOf fl, addressOf cn⟩ s, [])) s) s)

/-- PAIR_MAP_LOAD's effect (R3): the entry replaced, and a LIFT marked when its BR address is present. -/
def pairMapLoadEffect (p : Pair) (e : PairEntry) (s : State) : State :=
  if e.br.isSome then setLiftMark p true (setPairEntry p e s) else setPairEntry p e s

/-- PAIR_MAP_LOAD (R3). -/
def execPairMapLoad (tag : BitVec 16) (pair br capacity level initial : Byte) (s : State) :
    Host.Outcome State Fault Refusal :=
  .next (answer (.pairMapLoad tag pair br capacity level initial) tag 17
    (fun s => judge
      [(!s.inConfig, .badState), (noPair pair, .badValue), (addressRefused br, .badValue),
        (decide (capacity.toNat < 4) || decide (24 < capacity.toNat), .badValue),
        (decide (capacity.toNat ≤ level.toNat), .badValue), (decide (24 < initial.toNat), .badValue)]
      (fun s => (pairMapLoadEffect (pairAt pair)
        ⟨addressOf br, capacity.toNat, level.toNat, initial.toNat⟩ s, [])) s) s)

/-- A disposition replaced (R10). -/
def setDisposition (role : Role) (kind : Fin 32) (d : Disposition) (s : State) : State :=
  { s with frr :=
    { s.frr with
      dispositions := s.frr.dispositions.put (roleIndex role) ((s.frr.dispositions.at (roleIndex role)).put kind d) } }

/-- Whether an action is one that only acted-on kinds take (R9). -/
def Disposition.acts : Disposition → Bool
  | .consume => true
  | .consumeCopy => true
  | .forward => false
  | .drop => false

/-- DISPOSITION_LOAD (R10). -/
def execDispositionLoad (tag : BitVec 16) (role kind action : Byte) (s : State) : Host.Outcome State Fault Refusal :=
  .next (answer (.dispositionLoad tag role kind action) tag 18
    (fun s =>
      let r := (roleOf role.toNat).getD .ps
      let d := (dispositionOf action.toNat).getD .drop
      judge
        [((roleOf role.toNat).isNone, .badValue), (decide (31 < kind.toNat), .badValue),
          ((dispositionOf action.toNat).isNone, .badValue), (actedOn r kind.toNat && !d.acts, .badValue),
          (!actedOn r kind.toNat && d.acts, .badValue)]
        (fun s => (setDisposition r (Fin.ofNat 32 kind.toNat) d s, [])) s) s)

end Sys2Proof.Machine
end

