-- ==== Sys2Proof/Machine/Dispatch.lean ====
section
/-! DEFINITION. Machine/Dispatch.lean: exec, one arm for each command, each arm one call of its meaning. -/

namespace Sys2Proof.Machine

def exec (i : Instr) (s : State) : Host.Outcome State Fault Refusal :=
  match i with
  | .partReset => Sys2Proof.Machine.execPartReset s
  | .laneFrame bytes => Sys2Proof.Machine.execLaneFrame bytes s
  | .pinfall lane r => Sys2Proof.Machine.execPinfall lane r s
  | .pinfallScoring lane r view => Sys2Proof.Machine.execPinfallScoring lane r view s
  | .cycleDone lane tag result => Sys2Proof.Machine.execCycleDone lane tag result s
  | .machineFault lane code cls => Sys2Proof.Machine.execMachineFault lane code cls s
  | .machineReady lane => Sys2Proof.Machine.execMachineReady lane s
  | .cycleTimerExpiry lane => Sys2Proof.Machine.execCycleTimerExpiry lane s
  | .ballPass lane speed => Sys2Proof.Machine.execBallPass lane speed s
  | .foul lane => Sys2Proof.Machine.execFoul lane s
  | .ballPassReturn lane => Sys2Proof.Machine.execBallPassReturn lane s
  | .ballPassBilling lane => Sys2Proof.Machine.execBallPassBilling lane s
  | .ballArrived pair => Sys2Proof.Machine.execBallArrived pair s
  | .ballTaken pair => Sys2Proof.Machine.execBallTaken pair s
  | .liftJam pair => Sys2Proof.Machine.execLiftJam pair s
  | .liftClear pair => Sys2Proof.Machine.execLiftClear pair s
  | .overdueTimerExpiry pair => Sys2Proof.Machine.execOverdueTimerExpiry pair s
  | .correctionRequest lane bowler frame reason => Sys2Proof.Machine.execCorrectionRequest lane bowler frame reason s
  | .startGame lane => Sys2Proof.Machine.execStartGame lane s
  | .autoPost lane post => Sys2Proof.Machine.execAutoPost lane post s
  | .cycleEndReport report => Sys2Proof.Machine.execCycleEndReport report s
  | .readyChange lane => Sys2Proof.Machine.execReadyChange lane s
  | .readyEntry lane deck valid => Sys2Proof.Machine.execReadyEntry lane deck valid s
  | .holdSetChange lane => Sys2Proof.Machine.execHoldSetChange lane s
  | .gateEvaluation lane => Sys2Proof.Machine.execGateEvaluation lane s
  | .laneCycleExit lane => Sys2Proof.Machine.execLaneCycleExit lane s
  | .clockAdvance => Sys2Proof.Machine.execClockAdvance s
  | .haltLineAssert => Sys2Proof.Machine.execHaltLineAssert s
  | .haltLineRelease => Sys2Proof.Machine.execHaltLineRelease s
  | .deskFrameReceive bytes => Sys2Proof.Machine.execDeskFrameReceive bytes s
  | .deskContent frame => Sys2Proof.Machine.execDeskContent frame s
  | .deskLaneFrame dest kind payload => Sys2Proof.Machine.execDeskLaneFrame dest kind payload s
  | .unknownRequestCode payload => Sys2Proof.Machine.execUnknownRequestCode payload s
  | .downstreamLineFree => Sys2Proof.Machine.execDownstreamLineFree s
  | .deskFrameSent => Sys2Proof.Machine.execDeskFrameSent s
  | .noticeDrain => Sys2Proof.Machine.execNoticeDrain s
  | .status tag => Sys2Proof.Machine.execStatus tag s
  | .laneStatus tag lane => Sys2Proof.Machine.execLaneStatus tag lane s
  | .paramSet tag budget rank1 rank2 rank3 batchLow cycleTimeout returnTimeout logHigh safetyHalts => Sys2Proof.Machine.execParamSet tag budget rank1 rank2 rank3 batchLow cycleTimeout returnTimeout logHigh safetyHalts s
  | .paramRead tag => Sys2Proof.Machine.execParamRead tag s
  | .timeSet tag seconds => Sys2Proof.Machine.execTimeSet tag seconds s
  | .commit tag => Sys2Proof.Machine.execCommit tag s
  | .reconfigure tag => Sys2Proof.Machine.execReconfigure tag s
  | .laneEnable tag lane => Sys2Proof.Machine.execLaneEnable tag lane s
  | .laneDisable tag lane => Sys2Proof.Machine.execLaneDisable tag lane s
  | .laneReset tag lane => Sys2Proof.Machine.execLaneReset tag lane s
  | .haltAll tag => Sys2Proof.Machine.execHaltAll tag s
  | .resumeAll tag => Sys2Proof.Machine.execResumeAll tag s
  | .laneMapLoad tag lane enabled ps fl cn => Sys2Proof.Machine.execLaneMapLoad tag lane enabled ps fl cn s
  | .pairMapLoad tag pair br capacity level initial => Sys2Proof.Machine.execPairMapLoad tag pair br capacity level initial s
  | .dispositionLoad tag role kind action => Sys2Proof.Machine.execDispositionLoad tag role kind action s
  | .faultAck tag lane => Sys2Proof.Machine.execFaultAck tag lane s
  | .serviceEnter tag lane => Sys2Proof.Machine.execServiceEnter tag lane s
  | .serviceExit tag lane => Sys2Proof.Machine.execServiceExit tag lane s
  | .laneHold tag lane => Sys2Proof.Machine.execLaneHold tag lane s
  | .laneRelease tag lane => Sys2Proof.Machine.execLaneRelease tag lane s
  | .inject tag lane kind pattern preempt => Sys2Proof.Machine.execInject tag lane kind pattern preempt s
  | .injectCancel tag lane => Sys2Proof.Machine.execInjectCancel tag lane s
  | .batchAdd tag first last kind => Sys2Proof.Machine.execBatchAdd tag first last kind s
  | .batchFlush tag => Sys2Proof.Machine.execBatchFlush tag s
  | .deliveryVoid tag lane => Sys2Proof.Machine.execDeliveryVoid tag lane s
  | .teamLoad tag slot home auto size names => Sys2Proof.Machine.execTeamLoad tag slot home auto size names s
  | .teamUnload tag slot => Sys2Proof.Machine.execTeamUnload tag slot s
  | .teamRead tag slot bowler => Sys2Proof.Machine.execTeamRead tag slot bowler s
  | .gameStart tag slot => Sys2Proof.Machine.execGameStart tag slot s
  | .pairMode tag pair mode => Sys2Proof.Machine.execPairMode tag pair mode s
  | .correctionClose tag lane => Sys2Proof.Machine.execCorrectionClose tag lane s
  | .amendReserve tag slot bowler frame => Sys2Proof.Machine.execAmendReserve tag slot bowler frame s
  | .amendCommit tag slot bowler frame count balls => Sys2Proof.Machine.execAmendCommit tag slot bowler frame count balls s
  | .transitDiscard tag pair => Sys2Proof.Machine.execTransitDiscard tag pair s
  | .rackSet tag pair count => Sys2Proof.Machine.execRackSet tag pair count s
  | .pairAck tag pair causes => Sys2Proof.Machine.execPairAck tag pair causes s
  | .pairStatus tag pair => Sys2Proof.Machine.execPairStatus tag pair s
  | .tariffLoad tag index basis count bands trigger gate warn rounding => Sys2Proof.Machine.execTariffLoad tag index basis count bands trigger gate warn rounding s
  | .tariffRead tag index => Sys2Proof.Machine.execTariffRead tag index s
  | .sessionOpen tag lane session tariff credit => Sys2Proof.Machine.execSessionOpen tag lane session tariff credit s
  | .sessionTopup tag lane amount => Sys2Proof.Machine.execSessionTopup tag lane amount s
  | .sessionClose tag lane => Sys2Proof.Machine.execSessionClose tag lane s
  | .sessionRead tag lane => Sys2Proof.Machine.execSessionRead tag lane s
  | .chargeFetch tag n => Sys2Proof.Machine.execChargeFetch tag n s
  | .chargeSettle tag seq => Sys2Proof.Machine.execChargeSettle tag seq s
  | .chargeRewind tag => Sys2Proof.Machine.execChargeRewind tag s

end Sys2Proof.Machine
end

