-- ==== Sys2Proof/Machine/OwnEvents.lean ====
section
/-! DEFINITION. Machine/OwnEvents.lean: the event the part takes of itself when no command waits (log 1). -/

namespace Sys2Proof.Machine

/-- The lowest lane whose cycle timer has run out while a cycle is in flight (R37, log 7). -/
def dueCycle (s : State) : Option Instr :=
  (allLanes.find? fun l =>
    (s.machine l).state.moving && (s.machine l).inFlight.isSome && (s.machine l).timer == some 0).map .cycleTimerExpiry

/-- The lowest pair whose overdue timer has run out (R141, log 7). -/
def dueOverdue (s : State) : Option Instr :=
  (allPairs.find? fun p => (s.pair p).timer == some 0).map .overdueTimerExpiry

/-- The taking of the frame at the head of the desk receive queue, when it may be taken (R13). -/
def deskHead (s : State) : Option Instr :=
  match s.dli.rx with
  | f :: _ =>
    if f.kind = 2 ∧ f.addr = 0 ∧ Config.responsePlaces ≤ s.responsesQueued then none else some (commandOfFrame f)
  | [] => none

/-- The drain of the pending notice list, when a notice may leave (R21). -/
def drainDue (s : State) : Option Instr :=
  if !s.dli.notices.isEmpty && s.transmitOpen then some .noticeDrain else none

/-- The event the part takes of itself: one its blocks owe, a timer that is due, the head of the desk receive queue, a notice
(log 1). The choice of a frame for the downstream line is none of them: a mark set or an entry queued while the line already
stands free is sent at the next DOWNSTREAM_LINE_FREE, where R18 speaks only of the moment the line becomes free (log 12). -/
def ownEvent (s : State) : Option Instr :=
  s.owed.head?.or ((dueCycle s).or ((dueOverdue s).or ((deskHead s).or (drainDue s))))

end Sys2Proof.Machine
end

