-- ==== Sys2Proof/Machine/Step.lean ====
section
/-! DEFINITION. Machine/Step.lean: a step of the part: the command at the front of the queue, or with none waiting an event of the part's own; and withFetchWord. -/

namespace Sys2Proof.Machine

/-- The state with its queue of commands replaced. -/
def State.withPending (s : State) (q : List Instr) : State := { s with pending := q }

/-- A step: the command at the front of the queue is taken and run on the rest; with no command waiting the part takes an event
of its own, and idles when it has none (log 1). -/
def step (s : State) : Host.Outcome State Fault Refusal :=
  match s.pending with
  | c :: rest => exec c (s.withPending rest)
  | [] =>
    match ownEvent s with
    | some c => exec c s
    | none => .next s

/-- The state with the command that a word spells at the front of its queue; no word spells one (log 25). -/
def State.withFetchWord (s : State) (nbits w : Nat) : State :=
  match decodeTableWord nbits w with
  | some c => s.withPending (c :: s.pending)
  | none => s

end Sys2Proof.Machine
end

