-- ==== Sys2Proof/Safety.lean ====
section
/-! DEFINITION. Safety.lean: what holds of the part in every state it reaches, as the spec states it: invariants of the steps. -/

namespace Sys2Proof.Machine

/-! ### Requests (R13, R181) -/

/-- The tag and the code of a management request, which its response copies (R181); none for a command that is no request. -/
def requestHeader (c : Instr) : Option (BitVec 16 × Nat) :=
  match c with
  | .unknownRequestCode payload => some (formErrorHeader payload)
  | _ => (requestPayload c).map formErrorHeader

/-- From `s` to `t` the request `c` has been taken and answered: its frame has left the head of the receive queue, and its one
response, with the result and the fields, stands at the end of the transmit queue (R13, R181). -/
abbrev Answered (c : Instr) (tag : BitVec 16) (code : Nat) (r : Result) (fields : List Byte) (s t : State) : Prop :=
  t.dli.rx = (takeHead c s).dli.rx ∧ t.dli.tx = s.dli.tx ++ [responseFrame tag code r.code t.part fields]

/-- R138 at the end of an event on a pair, the notices before it being `raised`: RACK_HIGH is raised for the pair and on the consoles of
both its lanes when the projected free places fall from above the almost-full level to it or below, withdrawn for the pair when
they rise above it, and neither otherwise; of the Lane Link nothing changes but consoles and LIFT marks. -/
abbrev RackHighApplied (p : Pair) (raised : List Notice) (s t : State) : Prop :=
  let level : Int := (s.pair p).almostFull
  let free (r : PairRecord) : Int := (r.capacity : Int) - r.rack - r.transit.length
  let falls : Bool := decide (level < free (s.pair p) ∧ free (t.pair p) ≤ level)
  let rises : Bool := decide (free (s.pair p) ≤ level ∧ level < free (t.pair p))
  let codes (l : Lane) := (s.lli.console.at l).notices
  t.dli.notices = (if falls then noticesRaised (.ofPair .rackHigh p) raised
    else if rises then raised.erase (.ofPair .rackHigh p) else raised) ∧
  (∀ l, t.lli.console.at l = if falls ∧ pairOf l = p
    then ⟨(s.lli.console.at l).stale, if .rackHigh ∈ codes l then codes l else codes l ++ [.rackHigh]⟩
    else s.lli.console.at l) ∧
  t.lli = { s.lli with console := t.lli.console, liftMarks := t.lli.liftMarks }

/-- A state with the events of a list owed after those it owes already. -/
def State.owing (s : State) (cs : List Instr) : State := { s with owed := s.owed ++ cs }

/-- A state that an event leaves when it has no effect of its own: the event is no longer owed. -/
def State.without (s : State) (c : Instr) : State := { s with owed := s.owed.erase c }

/-! ### Frame traffic (R12, R13, R15, R19, R20) -/

/-- The frames of the desk transmit queue that are not responses: LANE copies and notices. -/
def State.othersQueued (s : State) : Nat := s.dli.tx.countP fun f => !(f.kind == 3)

/-- The desk receive queue holds at most 16 frames (R12), the forward-down queue at most 16 (R15), and the desk transmit queue at
most 8 responses (R13) and at most 56 other frames (R19). -/
structure QueuesBounded (s : State) : Prop where
  receive : s.dli.rx.length ≤ Config.deskReceivePlaces
  responses : s.responsesQueued ≤ Config.responsePlaces
  others : s.othersQueued ≤ Config.transmitOpenBelow
  forwardDown : s.lli.forwardDown.length ≤ Config.forwardDownPlaces

/-- The pending notice list holds each pair of kind and subject at most once (R20). -/
def NoticesDistinct (s : State) : Prop := s.dli.notices.Nodup

/-! ### The pinsetters (R27, R52) -/

/-- A lane machine record keeps what R27 says of it: the cycle in flight and its timer are present exactly while the machine is
CYCLING or STOPPING, the fault record exactly while it is FAULT, and service requested is yes only while it moves. -/
structure MachineConsistent (m : LaneMachine) : Prop where
  flight : m.inFlight.isSome = m.state.moving
  timer : m.timer.isSome = m.state.moving
  fault : m.fault.isSome = (m.state == .fault)
  service : m.serviceRequested = true → m.state.moving = true

/-- Every lane machine record is consistent (R27). -/
def MachinesConsistent (s : State) : Prop := ∀ l, MachineConsistent (s.machine l)

/-- The number of lanes whose pinsetter is CYCLING or STOPPING does not exceed the slot budget (R52). -/
def SlotsWithinBudget (s : State) : Prop := s.slotsInUse ≤ s.mrp.params.slotBudget

/-- The machine of a disabled lane is OFF (R27), and in CONFIG every machine is (R46). -/
structure DisabledOff (s : State) : Prop where
  disabled : ∀ l, s.enabled l = false → (s.machine l).state = .off
  config : s.part = .config → ∀ l, (s.machine l).state = .off

/-! ### Cycle dispatch (R58) -/

/-- The batch queue holds at most 16 entries (R58). -/
def BatchBounded (s : State) : Prop := s.cdp.batch.length ≤ Config.batchPlaces

/-! ### The teams (R88) -/

/-- No lane seats more than one team context (R88). -/
def SeatingDistinct (s : State) : Prop :=
  ∀ j k t u, s.team j = some t → s.team k = some u → t.seated = u.seated → j = k

/-- A team is seated on one of the two lanes of its home lane's pair (R91, R115). -/
def SeatedAtHomePair (s : State) : Prop := ∀ k t, s.team k = some t → pairOf t.seated = pairOf t.home

/-! ### Ball return (R132, R133, R136, R139, R140) -/

/-- A pair record keeps what the rules say of it: at most 8 transit entries, each naming a lane of the pair (R133), the rack not
above the capacity (R136), oldest overdue only while an entry is there (R132), the unmatched counters at most 255 (R147), the lift
RUN exactly under the three conditions (R139), and the overdue timer running exactly under its three (R140). -/
structure PairConsistent (p : Pair) (s : State) : Prop where
  places : (s.pair p).transit.length ≤ Config.transitPlaces
  lanes : ∀ e ∈ (s.pair p).transit, pairOf e.lane = p
  rack : (s.pair p).rack ≤ (s.pair p).capacity
  overdue : (s.pair p).oldestOverdue = true → (s.pair p).transit ≠ []
  arrivals : (s.pair p).unmatchedArrivals ≤ 255
  takes : (s.pair p).unmatchedTakes ≤ 255
  lift : (s.pair p).lift = liftCommand p s
  timer : (s.pair p).timer.isSome =
    ((s.pair p).lift && !(s.pair p).transit.isEmpty && !(s.pair p).oldestOverdue)

/-- Every pair record is consistent. -/
def PairsConsistent (s : State) : Prop := ∀ p, PairConsistent p s

/-! ### Sessions (R154, R174) -/

/-- An open session's credit is within its limit (R154) and, for a PER_GAME session, covers the reserved bowler-games (R154); a PER_TIME
session reserves none. -/
structure CreditCovers (l : Lane) (s : State) : Prop where
  limit : ∀ c, (s.session l).credit = some c → c ≤ s.creditLimit l
  reserved : ∀ c, (s.session l).credit = some c → (s.session l).reserved ≤ c
  timed : (s.terms l).isSome = true → (s.session l).reserved = 0

/-- Every session that is not CLOSED has its reservations covered (R154). -/
def CreditsCover (s : State) : Prop := ∀ l, s.sessionClosed l = false → CreditCovers l s

/-- LOGFULL is in a lane's hold set exactly when that lane's session holds an owed record (R174); a CLOSED session holds none (R167),
a game in progress is charged to a session that is not CLOSED (R165), and a BOWLING team has a game in progress (R88). -/
structure OwedHeld (s : State) : Prop where
  held : ∀ l, (s.holds l).logfull = (s.session l).owed.isSome
  closed : ∀ l, s.sessionClosed l = true → (s.session l).owed = none
  charged : ∀ k t, s.team k = some t → t.inProgress = true → s.sessionClosed t.home = false
  bowling : ∀ k t, s.team k = some t → t.state = .bowling → t.inProgress = true

/-! ### The charge log (R171, R172) -/

/-- The sequence numbers of `n` records the newest of which has the number before `next`. -/
def seqsBefore (next : BitVec 16) (n : Nat) : List (BitVec 16) :=
  (List.range n).map fun i => next - BitVec.ofNat 16 (n - i)

/-- The charge log holds at most 256 records, their sequence numbers are consecutive up to the next, and the fetch position lies
between the oldest held record and one past the newest (R172). -/
structure LogConsistent (s : State) : Prop where
  places : s.blu.log.length ≤ Config.logPlaces
  seqs : s.blu.log.map (·.seq) = seqsBefore s.blu.nextSeq s.blu.log.length
  fetch : (s.blu.nextSeq - s.blu.fetchPos).toNat ≤ s.blu.log.length

/-! ### The centre clock and the parameters (R183, R184) -/

/-- The clock holds a second of the day (R184). -/
def ClockInRange (s : State) : Prop := s.mrp.clock ≤ 86399

/-- The parameters lie in their ranges (R183). -/
structure ParamsInRange (s : State) : Prop where
  budget : 1 ≤ s.mrp.params.slotBudget ∧ s.mrp.params.slotBudget ≤ 16
  ranks : s.mrp.params.ranks.Perm [.inject, .auto, .batch]
  batchLow : s.mrp.params.batchLow ≤ 15
  cycle : 4 ≤ s.mrp.params.cycleTimeout ∧ s.mrp.params.cycleTimeout ≤ 60
  ret : 5 ≤ s.mrp.params.returnTimeout ∧ s.mrp.params.returnTimeout ≤ 120
  log : 1 ≤ s.mrp.params.logHigh ∧ s.mrp.params.logHigh ≤ 256

/-! ### The Halt Line (R192, R193) -/

/-- The line is observed asserted exactly while this part or another drives it, and a drive has its cause (R192). -/
structure HaltConsistent (s : State) : Prop where
  observed : s.mrp.halt.observed = (s.mrp.halt.drive || s.mrp.halt.others)
  cause : s.mrp.halt.cause.isSome = s.mrp.halt.drive

/-! ### The hold causes (R51, R144, R162, R163, R168) -/

/-- Three hold causes are present exactly while their reason holds: HALT in every lane's set while the part is HALTING or HALTED (R51),
PAIR while the pair's fault cause set is not empty and the part is not in CONFIG (R144), CREDIT while the lane's session is
EXPIRED (R162, R163, R168). -/
structure HoldsFollow (s : State) : Prop where
  halt : ∀ l, (s.holds l).halt = s.inHalt
  pair : ∀ l, (s.holds l).pair = (!(s.pair (pairOf l)).causes.isEmpty && !s.inConfig)
  credit : ∀ l, (s.holds l).credit = ((s.session l).state == .expired)

end Sys2Proof.Machine
end

