-- ==== Sys2Proof/WellFormed.lean ====
section
/-! DEFINITION. WellFormed.lean: the ranges of a command's operands that the spec fixes and the operand types do not. -/

namespace Sys2Proof

/-- A list that a request sends with its own count holds as many entries as the count says (R26). -/
def countsAgree (count : Byte) {α : Type} (entries : List α) : Bool := decide (entries.length = count.toNat)

/-- Whether a command's operands lie in the ranges the spec gives them. A management request is well-formed
whatever its field values (its condition table judges them); only its counts must agree with its lists. -/
def Instr.wellFormed (i : Instr) : Bool :=
  match i with
  | .machineFault _ code _ => decide (1 ≤ code.toNat ∧ code.toNat ≤ 254)
  | .ballPass _ speed => decide (speed ≤ 400)
  | .correctionRequest _ bowler frame reason =>
    decide (1 ≤ bowler ∧ bowler ≤ 6) && decide (1 ≤ frame ∧ frame ≤ 10) && decide (reason ≤ 15)
  | .cycleEndReport r =>
    match r.outcome, r.next with
    | .ok, .ready | .ok, .service | .aborted, .ready | .aborted, .service => true
    | .timeout, .fault | .timeout, .service | .fault, .fault => true
    | _, _ => false
  | .deskContent f => decide (commandOfFrame f = .deskContent f)
  | .deskLaneFrame dest kind payload =>
    decide (1 ≤ dest.toNat ∧ dest.toNat ≤ 127) && decide (kind.toNat ≤ 31) && decide (payload.length ≤ 28)
  | .unknownRequestCode payload => decide (requestOfPayload payload = .unknownRequestCode payload)
  | .teamLoad _ _ _ _ size names => countsAgree size names && names.all fun n => decide (n.length ≤ 255)
  | .amendCommit _ _ _ _ count balls => countsAgree count balls
  | .tariffLoad _ _ _ count bands _ _ _ _ => countsAgree count bands
  | _ => true

end Sys2Proof
end

