-- ==== Sys2Proof/Certificates/Slice0/Obligations.lean ====
section
/-! DEFINITION. Certificates/Slice0/Obligations.lean: the statements about the part, each a rule of the spec or an invariant of its steps. -/

open Sys2Proof Sys2Proof.Machine

/-! ### Steps, reset, requests -/

/-- A step takes the command at the front of the queue and runs it on the queue's rest. -/
def Obligations.StepRunsTheFrontCommand : Prop :=
  ∀ (c : Instr) (rest : List Instr) (s : State), s.pending = c :: rest → step s = exec c { s with pending := rest }

/-- Every command completes: exec answers a next state whatever the command and the state, and leaves the queue of commands as it
stands; no command faults and none is refused (R5, R12, R181 give each command that is turned away its answer or its record). -/
def Obligations.EveryCommandCompletes : Prop :=
  ∀ (c : Instr) (s : State), ∃ t, exec c s = .next t ∧ t.pending = s.pending

/-- With no command waiting the part takes the oldest event its blocks owe, with none owed a timer that is due, a frame from
the desk that may be taken or a notice that may leave, and with none of these it idles: the model's choice (log 1). -/
def Obligations.StepWithNoCommandTakesAnOwnEvent : Prop :=
  ∀ s : State, s.pending = [] →
    (∀ c rest, s.owed = c :: rest → step s = exec c s) ∧
    (s.owed = [] → ∀ l, dueCycle s = some l → step s = exec l s) ∧
    (s.owed = [] → dueCycle s = none → ∀ p, dueOverdue s = some p → step s = exec p s) ∧
    (s.owed = [] → dueCycle s = none → dueOverdue s = none → ∀ c, deskHead s = some c → step s = exec c s) ∧
    (s.owed = [] → dueCycle s = none → dueOverdue s = none → deskHead s = none →
      (s.dli.notices ≠ [] ∧ s.dli.tx.length < 56 → step s = exec .noticeDrain s) ∧
      (s.dli.notices = [] ∨ 56 ≤ s.dli.tx.length → step s = .next s))

/-- What a part reset leaves (R182 and the reset values that R1, R9, R12, R15 to R20, R23, R24, R27, R52 to R58, R63, R72, R74, R88, R110,
R120, R132, R151, R154, R172, R183, R184 and R192 give); the commands waiting, the line's other parties and the counter of free
values are not the part's and stay (log 10), the observed level is the line's (log 8), and the downstream line carries no frame (log 9). -/
def Obligations.PartResetLeavesTheResetValues : Prop :=
  ∀ s : State, ∃ t, exec .partReset s = .next t ∧
    (∀ l, t.laneEntry l = ⟨false, none, none, none⟩) ∧ (∀ p, t.pairEntry p = ⟨none, 12, 2, 0⟩) ∧
    (∀ r k, t.disposition r k = if actedOn r k then .consume else .forward) ∧
    (∀ l, t.frr.laneRefusals.at l = none) ∧ t.frr.partRefusal = none ∧
    (∀ l, t.lli.stopMarks.at l = none ∧ t.lli.probeMarks.at l = false ∧ t.lli.console.at l = ⟨false, []⟩) ∧
    (∀ p, t.lli.liftMarks.at p = false) ∧ t.lli.cycleList = [] ∧ numberOf t.lli.consolePointer = 32 ∧
    t.lli.consoleHadTurn = true ∧ t.lli.forwardDown = [] ∧ t.lli.line = none ∧
    t.dli = ⟨[], [], [], ⟨false, false, false, false⟩⟩ ∧
    (∀ l, t.machine l = ⟨.off, 0, false, 0, none, none, none, false, none, none, ⟨false, false, false, false, false⟩⟩) ∧
    t.slotsInUse = 0 ∧ (∀ l, t.auto l = none ∧ t.backup l = none ∧ t.cdp.discardOnAbort.at l = false) ∧
    numberOf t.cdp.pointer = 32 ∧ t.cdp.inject = none ∧ t.cdp.batch = [] ∧
    (∀ l, t.delivery l = none ∧ t.correction l = none) ∧ (∀ k, t.team k = none) ∧ (∀ p, t.mode p = .opened) ∧
    (∀ p, t.pair p = ⟨[], 0, 12, 2, false, none, false, ⟨none, none, none, none⟩, 0, 0⟩) ∧
    (∀ i, t.tariff i = none) ∧ (∀ l, t.session l =
      { state := .closed, id := 0, tariff := 0, credit := none, reserved := 0, seconds := 0, segMinutes := 0,
        segBand := none, segAmount := 0, accrued := 0, games := 0, minutes := 0, partialCharged := false,
        owed := none, warned := false, causeGate := false, causeLogFull := false }) ∧
    t.blu.log = [] ∧ t.blu.nextSeq = 0 ∧ t.blu.fetchPos = 0 ∧
    t.mrp.part = .config ∧ t.mrp.params = ⟨4, [.inject, .auto, .batch], 4, 12, 25, 192, true⟩ ∧
    t.mrp.clock = 0 ∧ t.mrp.clockSet = false ∧
    t.mrp.halt = ⟨s.mrp.halt.others, false, none, false, s.mrp.halt.others⟩ ∧
    t.owed = [] ∧ t.pending = s.pending ∧ t.draws = s.draws

/-- Each request taken is answered by exactly one response at the end of the transmit queue, with its tag and code copied and
the part state as it then stands; a request not answered OK changes nothing else; with eight responses queued none is taken
(R13, R181; that the request may be given by name is log 6). -/
def Obligations.EachRequestTakenIsAnsweredOnce : Prop :=
  ∀ (c : Instr) (tag : BitVec 16) (code : Nat) (s : State), requestHeader c = some (tag, code) →
    (8 ≤ s.responsesQueued → exec c s = .next s) ∧
    (s.responsesQueued < 8 → ∃ u r fields,
      exec c s = .next { u with dli := { u.dli with
        tx := s.dli.tx ++ [⟨0, 3, bytes16 tag ++
          [BitVec.ofNat 8 code, BitVec.ofNat 8 (Result.code r), BitVec.ofNat 8 u.mrp.part.code] ++ fields⟩] } } ∧
      u.dli.tx = s.dli.tx ∧ u.dli.rx = (takeHead c s).dli.rx ∧ (r ≠ .ok → u = takeHead c s))

/-- Taking a frame from the desk removes it from the head of the receive queue and nothing else (R13).

A desk frame of no kind, address and length that the part takes is discarded, DESK_CONTENT added and LINK_ERROR raised
(R13, last row).

The form check of a request: a payload shorter than three bytes, a code not in the catalogue, and fields whose length is not that
of the code's fields are a request of no form; every other payload is a request with that tag and code (R26, R181).

A request that fails it is answered BAD_REQUEST, with its tag and code copied, or 0 and 0 when it has fewer than three bytes, and
changes nothing (R181). -/
def Obligations.DeskFramesAreTakenFromTheHead : Prop :=
  (∀ (f : DeskFrame) (rest : List DeskFrame) (s : State), s.dli.rx = f :: rest →
      takeHead (commandOfFrame f) s = { s with dli := { s.dli with rx := rest } } ∧
      (f.kind = 2 → f.addr = 0 → commandOfFrame f = requestOfPayload f.payload) ∧
      (∀ k payload, f.payload = k :: payload → f.kind = 1 → 1 ≤ f.addr.toNat → f.addr.toNat ≤ 127 → k.toNat ≤ 31 →
        payload.length ≤ 28 → commandOfFrame f = .deskLaneFrame f.addr k payload) ∧
      (f.kind ≠ 1 → ¬ (f.kind = 2 ∧ f.addr = 0) → commandOfFrame f = .deskContent f) ∧
      (f.kind = 1 → (f.addr = 0 ∨ 127 < f.addr.toNat ∨ f.payload = [] ∨ 29 < f.payload.length ∨
        f.payload.head?.any (fun k => decide (31 < k.toNat)) = true) → commandOfFrame f = .deskContent f)) ∧
  (∀ (f : DeskFrame) (s : State),
      exec (.deskContent f) s = .next
        (let u := takeHead (.deskContent f) s
         { u with dli := { u.dli with
            linkErrors := { u.dli.linkErrors with deskContent := true }
            notices := noticesRaised (.ofPart .linkError) u.dli.notices } })) ∧
  (∀ payload : List Byte, payload.length < 3 → requestOfPayload payload = .unknownRequestCode payload) ∧
  (∀ (t1 t0 code : Byte) (fields : List Byte),
      let request := requestOfPayload (t1 :: t0 :: code :: fields)
      let fixed : List (Nat × Nat) :=
        [(1, 0), (2, 1), (3, 10), (4, 0), (5, 4), (6, 0), (7, 0), (8, 1), (9, 1), (10, 1), (11, 0), (12, 0), (16, 5), (17, 5),
          (18, 3), (24, 1), (25, 1), (26, 1), (27, 1), (28, 1), (32, 5), (33, 1), (34, 3), (35, 0), (40, 1), (42, 1), (43, 2),
          (44, 1), (45, 2), (48, 1), (49, 3), (56, 1), (57, 2), (58, 2), (59, 1), (65, 1), (66, 6), (67, 3), (68, 1), (69, 1),
          (72, 1), (73, 2), (74, 0)]
      let formed := (code.toNat, fields.length) ∈ fixed ∨
        (code = 41 ∧ ∃ slot home auto size : Byte, ∃ names : List (List Byte),
          fields = [slot, home, auto, size] ++ names.flatMap (fun n => BitVec.ofNat 8 n.length :: n) ∧
          names.length = size.toNat ∧ ∀ n ∈ names, n.length ≤ 255) ∨
        (code = 50 ∧ ∃ slot bowler frame count : Byte, ∃ balls : List Byte,
          fields = [slot, bowler, frame, count] ++ balls ∧ balls.length = 2 * count.toNat) ∨
        (code = 64 ∧ ∃ index basis count : Byte, ∃ rest : List Byte,
          fields = [index, basis, count] ++ rest ∧ rest.length = 4 * count.toNat + 4)
      (¬ formed → request = .unknownRequestCode (t1 :: t0 :: code :: fields)) ∧
      (formed → (∀ p, request ≠ .unknownRequestCode p) ∧ requestHeader request = some (word16 t1 t0, code.toNat))) ∧
  (∀ (payload : List Byte) (s : State), s.responsesQueued < 8 →
      exec (.unknownRequestCode payload) s = .next
        (let u := takeHead (.unknownRequestCode payload) s
         { u with dli := { u.dli with tx := u.dli.tx ++ [⟨0, 3,
            (match payload with
              | t1 :: t0 :: code :: _ => [t1, t0, code]
              | _ => [0, 0, 0]) ++ [1, BitVec.ofNat 8 u.mrp.part.code]⟩] } }))

/-! ### Frame traffic -/

/-- A Lane Link frame that fails its check is discarded, LANE_CHECK added and LINK_ERROR raised; a frame that passes goes to
classification (R5).

A Desk Link frame that fails its check is discarded, DESK_CHECK added and LINK_ERROR raised; a checked frame is appended to the
receive queue, or discarded with RX_OVERRUN when it holds 16 (R12). -/
def Obligations.FramesAreCheckedFirst : Prop :=
  (∀ (bytes : List Byte) (s : State), (∀ f : LaneFrame, f.payload.length ≤ 28 → bytes ≠ f.wire) →
    exec (.laneFrame bytes) s = .next { s with
      owed := s.owed.erase (.laneFrame bytes)
      dli := { s.dli with
        linkErrors := { s.dli.linkErrors with laneCheck := true }
        notices := noticesRaised (.ofPart .linkError) s.dli.notices } }) ∧
  (∀ (f : LaneFrame) (s : State), f.payload.length ≤ 28 →
    exec (.laneFrame f.wire) s = .next (classify f { s with owed := s.owed.erase (.laneFrame f.wire) })) ∧
  (∀ (bytes : List Byte) (s : State), (∀ f : DeskFrame, f.payload.length ≤ 512 → bytes ≠ f.wire) →
    exec (.deskFrameReceive bytes) s = .next { s with
      owed := s.owed.erase (.deskFrameReceive bytes)
      dli := { s.dli with
        linkErrors := { s.dli.linkErrors with deskCheck := true }
        notices := noticesRaised (.ofPart .linkError) s.dli.notices } }) ∧
  (∀ (f : DeskFrame) (s : State), f.payload.length ≤ 512 →
    exec (.deskFrameReceive f.wire) s = .next { s with
      owed := s.owed.erase (.deskFrameReceive f.wire)
      dli := if s.dli.rx.length < 16 then { s.dli with rx := s.dli.rx ++ [f] }
        else { s.dli with notices := noticesRaised (.ofPart .rxOverrun) s.dli.notices } })

/-- The classification of a checked upstream frame and the four dispositions, with the copy's place in the transmit queue
(R6, R11, R19). -/
def Obligations.UpstreamFramesAreClassified : Prop :=
  ∀ (f : LaneFrame) (s : State), f.payload.length ≤ 28 →
    let c := Instr.laneFrame f.wire
    let u := s.without c
    let copied := { u with dli := { u.dli with
      tx := if s.dli.tx.length < 56 then s.dli.tx ++ [⟨f.addr, 1, f.kind :: f.payload⟩] else s.dli.tx } }
    (s.mrp.part = .config → exec c s = .next copied) ∧
    (s.mrp.part ≠ .config → resolveUp f.addr s = none → exec c s = .next copied) ∧
    (∀ l, s.mrp.part ≠ .config → resolveUp f.addr s = some (.ps l) → (s.machine l).state = .service →
      exec c s = .next copied) ∧
    (∀ n, resolveUp f.addr s = some n → s.mrp.part ≠ .config →
      (∀ l, n = .ps l → (s.machine l).state ≠ .service) →
      (actedOn n.role f.kind.toNat = true → nodeEvents n f s = none →
        exec c s = .next { copied with dli := { copied.dli with
          linkErrors := { s.dli.linkErrors with laneContent := true }
          notices := noticesRaised (.ofPart .linkError) s.dli.notices } }) ∧
      (∀ cs, nodeEvents n f s = some cs → actedOn n.role f.kind.toNat = true →
        (s.disposition n.role f.kind.toNat = .consume → exec c s = .next (u.owing cs)) ∧
        (s.disposition n.role f.kind.toNat = .consumeCopy → exec c s = .next (copied.owing cs))) ∧
      ((actedOn n.role f.kind.toNat = true → nodeEvents n f s ≠ none) →
        (s.disposition n.role f.kind.toNat = .forward → exec c s = .next copied) ∧
        (s.disposition n.role f.kind.toNat = .drop → exec c s = .next u)))

/-- The blocks that take each acted-on frame, and the ranges its content must lie in; a PINFALL carries the lane's machine state,
deck and validity as they stand (R7, R8, R78). -/
def Obligations.ActedOnFramesReachTheirBlocks : Prop :=
  ∀ (s : State) (l : Lane) (p : Pair) (a : Byte),
    (∀ p1 p0, nodeEvents (.ps l) ⟨a, 1, [p1, p0]⟩ s = some [.pinfall l (pinsOfWord (word16 p1 p0)),
      .pinfallScoring l (pinsOfWord (word16 p1 p0)) ⟨(s.machine l).state, (s.machine l).deck, (s.machine l).deckValid⟩]) ∧
    (∀ tag, nodeEvents (.ps l) ⟨a, 2, [tag, 0]⟩ s = some [.cycleDone l tag .ok]) ∧
    (∀ tag, nodeEvents (.ps l) ⟨a, 2, [tag, 1]⟩ s = some [.cycleDone l tag .aborted]) ∧
    (∀ tag r : Byte, 1 < r.toNat → nodeEvents (.ps l) ⟨a, 2, [tag, r]⟩ s = none) ∧
    (∀ code : Byte, 1 ≤ code.toNat → code.toNat ≤ 254 →
      nodeEvents (.ps l) ⟨a, 3, [code, 0]⟩ s = some [.machineFault l code .normal] ∧
      nodeEvents (.ps l) ⟨a, 3, [code, 1]⟩ s = some [.machineFault l code .safety]) ∧
    (∀ code cls : Byte, code = 0 ∨ code = 255 ∨ 1 < cls.toNat → nodeEvents (.ps l) ⟨a, 3, [code, cls]⟩ s = none) ∧
    nodeEvents (.ps l) ⟨a, 4, []⟩ s = some [.machineReady l] ∧
    (∀ s1 s0 : Byte, (word16 s1 s0).toNat ≤ 400 →
      nodeEvents (.fl l) ⟨a, 5, [s1, s0]⟩ s = some ([.ballPass l (word16 s1 s0).toNat, .ballPassReturn l] ++
        if (s.session l).state ≠ .closed ∧ (s.terms l).map (·.trigger) = some .onFirstBall then [.ballPassBilling l]
        else [])) ∧
    (∀ s1 s0 : Byte, 400 < (word16 s1 s0).toNat → nodeEvents (.fl l) ⟨a, 5, [s1, s0]⟩ s = none) ∧
    nodeEvents (.fl l) ⟨a, 6, []⟩ s = some [.foul l] ∧
    nodeEvents (.br p) ⟨a, 7, []⟩ s = some [.ballArrived p] ∧ nodeEvents (.br p) ⟨a, 8, []⟩ s = some [.ballTaken p] ∧
    nodeEvents (.br p) ⟨a, 9, []⟩ s = some [.liftJam p] ∧ nodeEvents (.br p) ⟨a, 10, []⟩ s = some [.liftClear p] ∧
    (∀ b f r : Byte, nodeEvents (.cn l) ⟨a, 11, [b, f, r]⟩ s =
      if 1 ≤ b.toNat ∧ b.toNat ≤ 6 ∧ 1 ≤ f.toNat ∧ f.toNat ≤ 10 ∧ r.toNat ≤ 15 then
        some [.correctionRequest l b.toNat f.toNat r.toNat]
      else none) ∧
    nodeEvents (.cn l) ⟨a, 12, []⟩ s = some [.startGame l] ∧
    (∀ (n : Node) (k : Byte) (payload : List Byte), actedOn n.role k.toNat = true →
      payload.length ≠ (if k = 1 ∨ k = 2 ∨ k = 3 ∨ k = 5 then 2 else if k = 11 then 3 else 0) →
      nodeEvents n ⟨a, k, payload⟩ s = none)

/-- An address resolves to the node of an entry that holds it, in the first of the roles PS, FL and CN: upstream among the entries of
enabled lanes and pairs alone, the lowest-numbered lane first and then the lowest-numbered pair; for a desk frame's destination
to that node when there is one, and otherwise in the same order among all entries; and to none exactly when no entry counted
holds it (R4; in every part state alike, log 27). -/
def Obligations.AddressesResolveThroughTheLaneMap : Prop :=
  ∀ (a : Byte) (s : State),
    let lacks (l : Lane) := (s.laneEntry l).ps ≠ some a ∧ (s.laneEntry l).fl ≠ some a ∧ (s.laneEntry l).cn ≠ some a
    let holds (l : Lane) (n : Node) :=
      ((s.laneEntry l).ps = some a ∧ n = .ps l) ∨
      ((s.laneEntry l).ps ≠ some a ∧ (s.laneEntry l).fl = some a ∧ n = .fl l) ∨
      ((s.laneEntry l).ps ≠ some a ∧ (s.laneEntry l).fl ≠ some a ∧ (s.laneEntry l).cn = some a ∧ n = .cn l)
    let nowhere (lanes : Lane → Prop) (pairs : Pair → Prop) :=
      (∀ l, lanes l → lacks l) ∧ ∀ p, pairs p → (s.pairEntry p).br ≠ some a
    let first (lanes : Lane → Prop) (pairs : Pair → Prop) (n : Node) :=
      (∃ l, lanes l ∧ holds l n ∧ ∀ k, k < l → lanes k → lacks k) ∨
      ((∀ l, lanes l → lacks l) ∧ ∃ p, pairs p ∧ (s.pairEntry p).br = some a ∧ n = .br p ∧
        ∀ q, q < p → pairs q → (s.pairEntry q).br ≠ some a)
    let up (l : Lane) := s.enabled l = true
    let upPair (p : Pair) := s.enabled (oddLane p) = true ∨ s.enabled (evenLane p) = true
    (∀ n, resolveUp a s = some n ↔ first up upPair n) ∧
    (resolveUp a s = none ↔ nowhere up upPair) ∧
    (∀ n, resolveUp a s = some n → resolveDown a s = some n) ∧
    (resolveUp a s = none → ∀ n, resolveDown a s = some n ↔ first (fun _ => True) (fun _ => True) n) ∧
    (resolveDown a s = none ↔ nowhere (fun _ => True) (fun _ => True))

/-- The pass-through filter (R14): the rows in order, the refusal of the subject (R24), and the frame appended otherwise.

A refusal overwrites its subject's record and raises FORWARD_REFUSED for it: the destination's lane, the odd lane of its pair,
or the part for UNKNOWN_DEST and a destination that resolves to no entry (R14, R24). -/
def Obligations.DeskLaneFramesPassOrAreRefused : Prop :=
  (∀ (dest kind : Byte) (payload : List Byte) (s : State),
      let c := Instr.deskLaneFrame dest kind payload
      let u := takeHead c s
      let passed := { u with lli := { u.lli with forwardDown := s.lli.forwardDown ++ [⟨dest, kind, payload⟩] } }
      let room := s.lli.forwardDown.length < 16
      (s.mrp.part = .config → ¬ room → exec c s = .next (refuse dest .queueFull u)) ∧
      (s.mrp.part = .config → room → exec c s = .next passed) ∧
      (s.mrp.part ≠ .config → dest = 127 ∨ resolveDown dest s = none → exec c s = .next (refuse dest .unknownDest u)) ∧
      (∀ l, s.mrp.part ≠ .config → dest ≠ 127 → resolveDown dest s = some (.ps l) →
        (s.mrp.part = .halting ∨ s.mrp.part = .halted → exec c s = .next (refuse dest .partHalted u)) ∧
        (s.mrp.part = .run → (s.machine l).state ≠ .service → exec c s = .next (refuse dest .psNotInService u)) ∧
        (s.mrp.part = .run → (s.machine l).state = .service →
          exec c s = .next (if s.lli.forwardDown.length < 16 then passed else refuse dest .queueFull u))) ∧
      (∀ p, s.mrp.part ≠ .config → dest ≠ 127 → resolveDown dest s = some (.br p) →
        exec c s = .next (if kind = 19 then refuse dest .partOwned u
          else if s.lli.forwardDown.length < 16 then passed else refuse dest .queueFull u)) ∧
      (∀ l, s.mrp.part ≠ .config → dest ≠ 127 →
        resolveDown dest s = some (.fl l) ∨ resolveDown dest s = some (.cn l) →
        exec c s = .next (if s.lli.forwardDown.length < 16 then passed else refuse dest .queueFull u))) ∧
  (∀ (dest : Byte) (reason : RefusalReason) (s : State),
      let ofLane (l : Lane) := { s with
        frr := { s.frr with laneRefusals := s.frr.laneRefusals.put l (some ⟨dest, reason⟩) }
        dli := { s.dli with notices := noticesRaised (.ofLane .forwardRefused l) s.dli.notices } }
      let ofPart := { s with
        frr := { s.frr with partRefusal := some ⟨dest, reason⟩ }
        dli := { s.dli with notices := noticesRaised (.ofPart .forwardRefused) s.dli.notices } }
      (reason = .unknownDest ∨ resolveDown dest s = none → refuse dest reason s = ofPart) ∧
      (∀ l, reason ≠ .unknownDest →
        resolveDown dest s = some (.ps l) ∨ resolveDown dest s = some (.fl l) ∨ resolveDown dest s = some (.cn l) →
        refuse dest reason s = ofLane l) ∧
      (∀ p, reason ≠ .unknownDest → resolveDown dest s = some (.br p) → refuse dest reason s = ofLane (oddLane p)))

/-- The choice of the next frame down the Lane Link, tier by tier (R16, R17, R18): what each tier sends, the mark, entry, code or
flag it clears with nothing else changed but the line, the console pointer and the turn, and an idle line when nothing
waits.

What is chosen and sends no frame leaves, and the choice is made again at once: a STOP mark whose machine is not STOPPING the cycle of
its tag, a CYCLE entry whose lane does not move the cycle of its tag, a LIFT or PROBE mark without its address (R16), the console
traffic of a lane without a CN address, the pointer moving to the lane (R17, R18), and a queued frame to a PS node, refused with
PART_HALTED in a halt and with PS_NOT_IN_SERVICE outside SERVICE (R15, R24). That a STOP or CYCLE without a PS address leaves
too is the model's (log 20). -/
def Obligations.TheDownstreamLineFollowsThePrecedence : Prop :=
  ∀ (s : State),
    let c := Instr.downstreamLineFree
    let free : LaneLink → State := fun x => { s with owed := s.owed.erase c, lli := x }
    let noStop := ∀ l, (s.lli.stopMarks.at l).isSome = true → ∃ e ∈ s.lli.cycleList, e.1 = l
    let noLift := ∀ p, s.lli.liftMarks.at p = false
    let noProbe := ∀ l, s.lli.probeMarks.at l = false
    let noMark := noStop ∧ s.lli.cycleList = [] ∧ noLift ∧ noProbe
    let again (x : State) := exec c s = exec c x
    let withLink (x : LaneLink) : State := { s with lli := x }
    (∀ l, ∀ tag, s.lli.stopMarks.at l = some tag → ∀ cycle, (s.machine l).inFlight = some cycle →
      ∀ a, (s.laneEntry l).ps = some a → (∀ e ∈ s.lli.cycleList, e.1 ≠ l) →
      (∀ k, k < l → (s.lli.stopMarks.at k).isSome = true → ∃ e ∈ s.lli.cycleList, e.1 = k) →
      (s.machine l).state = .stopping → cycle.tag = tag →
      exec c s = .next (free { s.lli with stopMarks := s.lli.stopMarks.put l none, line := some ⟨a, 17, [tag]⟩ })) ∧
    (∀ e rest, s.lli.cycleList = e :: rest → ∀ cycle, (s.machine e.1).inFlight = some cycle →
      ∀ a, (s.laneEntry e.1).ps = some a → noStop → cycle.tag = e.2 →
      (s.machine e.1).state = .cycling ∨ (s.machine e.1).state = .stopping →
      exec c s = .next (free { s.lli with
        cycleList := rest
        line := some ⟨a, 16, [e.2, BitVec.ofNat 8 cycle.kind.code] ++
          (match cycle.kind with
            | .respot p => pinBytes p
            | _ => [0, 0])⟩ })) ∧
    (∀ p, ∀ a, (s.pairEntry p).br = some a → noStop → s.lli.cycleList = [] → s.lli.liftMarks.at p = true →
      (∀ q, q < p → s.lli.liftMarks.at q = false) →
      exec c s = .next (free { s.lli with
        liftMarks := s.lli.liftMarks.put p false
        line := some ⟨a, 19, [if (s.pair p).lift then 1 else 0]⟩ })) ∧
    (∀ l, ∀ a, (s.laneEntry l).ps = some a → noStop → s.lli.cycleList = [] → noLift → s.lli.probeMarks.at l = true →
      (∀ k, k < l → s.lli.probeMarks.at k = false) →
      exec c s = .next (free { s.lli with probeMarks := s.lli.probeMarks.put l false, line := some ⟨a, 18, []⟩ })) ∧
    (∀ l, (lanesAfter s.lli.consolePointer).find? (fun k => (s.lli.console.at k).traffic) = some l →
      ∀ a, (s.laneEntry l).cn = some a → noMark → s.lli.forwardDown = [] ∨ s.lli.consoleHadTurn = false →
      (∀ code rest, (s.lli.console.at l).notices = code :: rest →
        exec c s = .next (free { s.lli with
          console := s.lli.console.put l ⟨(s.lli.console.at l).stale, rest⟩
          consolePointer := l
          consoleHadTurn := true
          line := some ⟨a, 21, [BitVec.ofNat 8 code.code]⟩ })) ∧
      ((s.lli.console.at l).notices = [] →
        exec c s = .next (free { s.lli with
          console := s.lli.console.put l ⟨false, []⟩
          consolePointer := l
          consoleHadTurn := true
          line := some ⟨a, 20, displayBytes l s⟩ }))) ∧
    (∀ f rest, s.lli.forwardDown = f :: rest → noMark →
      (∀ l, (s.lli.console.at l).traffic = false) ∨ s.lli.consoleHadTurn = true →
      s.mrp.part = .config ∨
        (∀ l, resolveDown f.addr s = some (.ps l) → s.mrp.part = .run ∧ (s.machine l).state = .service) →
      exec c s = .next (free { s.lli with forwardDown := rest, consoleHadTurn := false, line := some f })) ∧
    (∀ l, ∀ tag, s.lli.stopMarks.at l = some tag → (∀ e ∈ s.lli.cycleList, e.1 ≠ l) →
      (∀ k, k < l → (s.lli.stopMarks.at k).isSome = true → ∃ e ∈ s.lli.cycleList, e.1 = k) →
      (s.machine l).state ≠ .stopping ∨ (∀ cycle, (s.machine l).inFlight = some cycle → cycle.tag ≠ tag) ∨
        (s.laneEntry l).ps = none →
      again (withLink { s.lli with stopMarks := s.lli.stopMarks.put l none })) ∧
    (∀ e rest, s.lli.cycleList = e :: rest → noStop →
      ((s.machine e.1).state ≠ .cycling ∧ (s.machine e.1).state ≠ .stopping) ∨
        (∀ cycle, (s.machine e.1).inFlight = some cycle → cycle.tag ≠ e.2) ∨ (s.laneEntry e.1).ps = none →
      again (withLink { s.lli with cycleList := rest })) ∧
    (∀ p, (s.pairEntry p).br = none → noStop → s.lli.cycleList = [] → s.lli.liftMarks.at p = true →
      (∀ q, q < p → s.lli.liftMarks.at q = false) →
      again (withLink { s.lli with liftMarks := s.lli.liftMarks.put p false })) ∧
    (∀ l, (s.laneEntry l).ps = none → noStop → s.lli.cycleList = [] → noLift → s.lli.probeMarks.at l = true →
      (∀ k, k < l → s.lli.probeMarks.at k = false) →
      again (withLink { s.lli with probeMarks := s.lli.probeMarks.put l false })) ∧
    (∀ l, (lanesAfter s.lli.consolePointer).find? (fun k => (s.lli.console.at k).traffic) = some l →
      (s.laneEntry l).cn = none → noMark → s.lli.forwardDown = [] ∨ s.lli.consoleHadTurn = false →
      again (withLink { s.lli with console := s.lli.console.put l ⟨false, []⟩, consolePointer := l })) ∧
    (∀ f rest, s.lli.forwardDown = f :: rest → noMark →
      (∀ l, (s.lli.console.at l).traffic = false) ∨ s.lli.consoleHadTurn = true →
      ∀ l, resolveDown f.addr s = some (.ps l) →
      let refused (reason : RefusalReason) : State :=
        { s with
          lli := { s.lli with forwardDown := rest }
          frr := { s.frr with laneRefusals := s.frr.laneRefusals.put l (some ⟨f.addr, reason⟩) }
          dli := { s.dli with notices := noticesRaised (.ofLane .forwardRefused l) s.dli.notices } }
      (s.mrp.part = .halting ∨ s.mrp.part = .halted → again (refused .partHalted)) ∧
      (s.mrp.part = .run → (s.machine l).state ≠ .service → again (refused .psNotInService))) ∧
    (noMark → (∀ l, (s.lli.console.at l).traffic = false) → s.lli.forwardDown = [] →
      exec c s = .next (free { s.lli with line := none }))

/-- A notice withdrawn leaves the list, those behind it keeping their order; a notice not in the list is withdrawn without effect;
raised again it stands at the end; a notice already in the list is raised without effect (R20, R22).

The oldest notice leaves while the transmit queue holds fewer than 56 frames, its frame carrying its kind, subject and content
as they stand; LINK_ERROR empties the link error set and UNMATCHED sets its pair's counters to 0; otherwise nothing
happens (R21, R23, R147). That the frame's address is 0 is the model's reading (log 17).

The completion of a sending removes the oldest frame of the transmit queue and nothing else (R19). -/
def Obligations.NoticesAreRaisedWithdrawnAndDrained : Prop :=
  (∀ (n : Notice) (s : State), s.dli.notices.Nodup →
      withdraw n s = { s with dli := { s.dli with notices := s.dli.notices.filter (· ≠ n) } } ∧
      (n ∉ s.dli.notices → withdraw n s = s ∧
        raise n s = { s with dli := { s.dli with notices := s.dli.notices ++ [n] } }) ∧
      (n ∈ s.dli.notices → raise n s = s ∧
        raise n (withdraw n s) = { s with dli := { s.dli with notices := s.dli.notices.filter (· ≠ n) ++ [n] } })) ∧
  (∀ (s : State),
      (∀ n rest, s.dli.notices = n :: rest → s.dli.tx.length < 56 → ∃ t, exec .noticeDrain s = .next t ∧
        t.dli.notices = rest ∧
        t.dli.tx = s.dli.tx ++ [⟨0, 4, [BitVec.ofNat 8 n.kindCode, BitVec.ofNat 8 n.subjectCode] ++ noticeContent n s⟩] ∧
        t.dli.linkErrors = (if n = .ofPart .linkError then ⟨false, false, false, false⟩ else s.dli.linkErrors) ∧
        (∀ p, t.pair p = if n = .ofPair .unmatched p then { s.pair p with unmatchedArrivals := 0, unmatchedTakes := 0 }
          else s.pair p) ∧
        t = { s with owed := s.owed.erase .noticeDrain, brm := t.brm, dli := { t.dli with rx := s.dli.rx } }) ∧
      (s.dli.notices = [] ∨ 56 ≤ s.dli.tx.length → exec .noticeDrain s = .next (s.without .noticeDrain))) ∧
  (∀ (s : State), exec .deskFrameSent s = .next { s with
      owed := s.owed.erase .deskFrameSent
      dli := { s.dli with tx := s.dli.tx.drop 1 } })

/-- The display content a SCORE_UPDATE carries, byte by byte: one byte 0 with no team seated; otherwise the slot, state, standby reason,
game, frame, ball and bowler, the target, the roster size, each bowler's newest cumulative total present or 65535, and the most recent
ball's pins, flags and speed, or 255, 0 and 65535 with none (R109); between games the totals are those of the frames the roster
still holds (log 27).

The codes of the notice kinds and subjects, and the content of each kind as it stands when the notice leaves the list, in the order of
the sentence that gives it (R23, R24, R36, R41, R43, R62, R106, R122, R138, R145, R147, R161, R162, R179, R182), sized and coded as R26
says (the codes that R26 reads from a list are log 15, the items that may be absent are log 16, the order of the fault causes is
log 28). -/
def Obligations.DisplaysAndNoticesCarryTheirContent : Prop :=
  (∀ n : Nat,
    u16 n = [BitVec.ofNat 8 (n / 256), BitVec.ofNat 8 n] ∧
    clockBytes n = [BitVec.ofNat 8 (n / 2 ^ 24), BitVec.ofNat 8 (n / 2 ^ 16), BitVec.ofNat 8 (n / 256), BitVec.ofNat 8 n] ∧
    moneyBytes n = [BitVec.ofNat 8 (n / 2 ^ 40), BitVec.ofNat 8 (n / 2 ^ 32), BitVec.ofNat 8 (n / 2 ^ 24),
      BitVec.ofNat 8 (n / 2 ^ 16), BitVec.ofNat 8 (n / 256), BitVec.ofNat 8 n]) ∧
  (∀ (l : Lane) (s : State),
    let flag (b : Bool) (n : Byte) : Byte := if b then n else 0
    (s.seatedTeam l = none → displayBytes l s = [0]) ∧
    (∀ k t, s.seatedTeam l = some (k, t) →
      let ball : Option Ball := match t.recent with
        | none => none
        | some r => (t.roster[r.bowler - 1]?).bind fun b => (b.frames.at (frameIndex r.frame)).balls[r.ball - 1]?
      displayBytes l s = [BitVec.ofNat 8 (numberOf k),
          (match t.state with | .standby _ => 1 | .bowling => 2 | .waitingCross => 3),
          (match t.state with
            | .standby .new => 1 | .standby .noSession => 2 | .standby .noCredit => 3 | .standby .locked => 4
            | .standby .logFull => 5 | .standby .gameOver => 6 | .standby .reset => 7 | _ => 0),
          BitVec.ofNat 8 t.game, BitVec.ofNat 8 t.frame, BitVec.ofNat 8 t.ball, BitVec.ofNat 8 t.bowler] ++
        pinBytes t.target ++ [BitVec.ofNat 8 t.roster.length] ++
        (t.roster.flatMap fun b => u16 (((b.frames.toList.filterMap (·.cumulative)).getLast?).getD 65535)) ++
        (match ball with
          | none => [255, 0, 255, 255]
          | some b => [BitVec.ofNat 8 b.pins, flag b.foul 1 + flag b.unseen 2 + flag b.mismatch 4 + flag b.amended 8] ++
            u16 (b.speed.getD 65535)))) ∧
  (∀ (l : Lane) (p : Pair),
    [LaneNoticeKind.machineFault, .machineReady, .serviceReady, .lateDone, .stray, .correction, .gameEnd, .warn, .expired,
      .forwardRefused].map (fun k => ((Notice.ofLane k l).kindCode, (Notice.ofLane k l).subjectCode)) =
      [1, 2, 3, 4, 5, 9, 10, 11, 12, 15].map (fun n => (n, l.val + 1)) ∧
    [PairNoticeKind.pairFault, .rackHigh, .unmatched].map
      (fun k => ((Notice.ofPair k p).kindCode, (Notice.ofPair k p).subjectCode)) = [6, 7, 8].map (fun n => (n, p.val + 1)) ∧
    [PartNoticeKind.logHigh, .batchLow, .forwardRefused, .linkError, .rxOverrun, .partState].map
      (fun k => ((Notice.ofPart k).kindCode, (Notice.ofPart k).subjectCode)) = [13, 14, 15, 16, 17, 18].map (fun n => (n, 0))) ∧
  (∀ (l : Lane) (s : State),
    let m := s.machine l
    let x := s.session l
    let bit (b : Bool) : Byte := if b then 1 else 0
    let opt {α : Type} (f : α → List Byte) (x : Option α) : List Byte := match x with
      | none => [0]
      | some y => 1 :: f y
    let state (st : MachineState) : Byte := match st with
      | .off => 1 | .ready => 2 | .cycling => 3 | .stopping => 4 | .fault => 5 | .service => 6
    let result (r : CycleResult) : Byte := match r with | .ok => 0 | .aborted => 1
    let team (t : TeamState) : Byte := match t with | .standby _ => 2 | .bowling => 3 | .waitingCross => 4
    let reason (t : TeamState) : List Byte := match t with
      | .standby r => [1, (match r with
        | .new => 1 | .noSession => 2 | .noCredit => 3 | .locked => 4 | .logFull => 5 | .gameOver => 6 | .reset => 7)]
      | _ => [0]
    let session : Byte := match x.state with
      | .closed => 1 | .armed => 2 | .running => 3 | .suspended => 4 | .expired => 5
    let refusal (r : RefusalReason) : Byte := match r with
      | .unknownDest => 1 | .partHalted => 2 | .psNotInService => 3 | .partOwned => 4 | .queueFull => 5
    let lane (k : LaneNoticeKind) := noticeContent (.ofLane k l) s
    lane .machineFault = state m.state :: opt (fun (f : FaultRecord) =>
      [f.code, (match f.cls with | .normal => 0 | .safety => 1), bit f.nodeCleared, bit f.deskAcked]) m.fault ∧
    lane .machineReady = [state m.state] ++ pinBytes m.deck ++ [bit m.deckValid] ∧
    lane .serviceReady = [state m.state] ∧
    lane .lateDone = opt (fun (r : LateRecord) => r.tag :: opt (fun y => [result y]) r.result) m.late ++ [state m.state] ∧
    lane .stray = opt (fun (r : StrayRecord) => (match r.report with
        | .cycleDone tag y => [2, 1, tag, 1, result y, 0]
        | .pinfall q => [1, 0, 0, 1] ++ pinBytes q
        | .machineReady => [4, 0, 0, 0]) ++ [state r.machine]) m.stray ++ [state m.state] ∧
    (∀ c, s.correction l = some c → lane .correction = [BitVec.ofNat 8 (numberOf c.team), BitVec.ofNat 8 c.bowler,
      BitVec.ofNat 8 c.frame, BitVec.ofNat 8 c.reason] ++ (match s.team c.team with
        | some t => [team t.state, BitVec.ofNat 8 (numberOf t.seated)]
        | none => [1])) ∧
    (s.seatedTeam l = none → lane .gameEnd = []) ∧
    (∀ k t, s.seatedTeam l = some (k, t) → lane .gameEnd = [BitVec.ofNat 8 (numberOf k), team t.state] ++ reason t.state ++
      [BitVec.ofNat 8 t.game, BitVec.ofNat 8 t.roster.length] ++ t.roster.flatMap fun b =>
        opt (fun (g : GameTotal) => BitVec.ofNat 8 g.game :: u16 g.total) b.totals.getLast?) ∧
    (∀ terms, s.terms l = some terms → lane .warn =
      session :: opt u16 x.credit ++ [BitVec.ofNat 8 terms.warn, bit x.warned]) ∧
    lane .expired = session :: bytes16 x.id ++ opt u16 x.credit ++ u16 x.minutes ++ moneyBytes x.accrued.toNat ∧
    (∀ r, s.frr.laneRefusals.at l = some r → lane .forwardRefused = [r.dest, refusal r.reason])) ∧
  (∀ (p : Pair) (s : State),
    let r := s.pair p
    let bit (b : Bool) : Byte := if b then 1 else 0
    let cause (code : Byte) (c : Option Bool) : List Byte := match c with
      | none => []
      | some ended => [code, bit ended]
    let members := [r.causes.overdue, r.causes.jam, r.causes.overflow, r.causes.overrun].countP (·.isSome)
    let pair (k : PairNoticeKind) := noticeContent (.ofPair k p) s
    pair .pairFault = BitVec.ofNat 8 members :: (cause 1 r.causes.overdue ++ cause 2 r.causes.jam ++
        cause 3 r.causes.overflow ++ cause 4 r.causes.overrun) ++
      (match r.transit with
        | [] => [0]
        | e :: _ => [1, BitVec.ofNat 8 (numberOf e.lane)] ++ clockBytes e.passTime ++ [bit r.oldestOverdue]) ++
      [BitVec.ofNat 8 r.rack, BitVec.ofNat 8 r.capacity, bit r.lift] ∧
    pair .rackHigh = [BitVec.ofNat 8 r.rack, BitVec.ofNat 8 r.transit.length, BitVec.ofNat 8 r.capacity,
      BitVec.ofNat 8 r.almostFull, BitVec.ofInt 8 ((r.capacity : Int) - r.rack - r.transit.length)] ∧
    pair .unmatched = [BitVec.ofNat 8 r.unmatchedArrivals, BitVec.ofNat 8 r.unmatchedTakes]) ∧
  (∀ s : State,
    let h := s.mrp.halt
    let e := s.dli.linkErrors
    let flag (b : Bool) (n : Byte) : Byte := if b then n else 0
    let holding := allLanes.filter fun l => (s.session l).owed.isSome
    let refusal (r : RefusalReason) : Byte := match r with
      | .unknownDest => 1 | .partHalted => 2 | .psNotInService => 3 | .partOwned => 4 | .queueFull => 5
    let part (k : PartNoticeKind) := noticeContent (.ofPart k) s
    part .logHigh = u16 s.blu.log.length ++ u16 s.mrp.params.logHigh ++ u16 (s.blu.nextSeq - s.blu.fetchPos).toNat ++
      [BitVec.ofNat 8 holding.length] ++ (match holding with
        | [] => [0]
        | l :: _ => [1, BitVec.ofNat 8 (numberOf l)]) ∧
    part .batchLow = [BitVec.ofNat 8 s.cdp.batch.length, BitVec.ofNat 8 s.mrp.params.batchLow] ∧
    part .linkError = [flag e.laneCheck 1 + flag e.laneContent 2 + flag e.deskCheck 4 + flag e.deskContent 8] ∧
    part .rxOverrun = [] ∧
    part .partState = [(match s.mrp.part with | .config => 0 | .run => 1 | .halting => 2 | .halted => 3),
      if h.observed then 1 else 2, flag h.drive 1] ++ (match h.cause with
        | none => [0]
        | some .desk => [1, 1, 0]
        | some (.safety l) => [1, 2, 1, BitVec.ofNat 8 (numberOf l)]) ++ [flag h.resumeRequested 1] ∧
    (∀ r, s.frr.partRefusal = some r → part .forwardRefused = [r.dest, refusal r.reason]))

/-! ### The pinsetters -/

/-- PINFALL at the Pinsetter Supervisor: in READY the deck becomes the report, intersected with a valid deck, and is valid; in OFF,
CYCLING, STOPPING and FAULT the stray record is overwritten and STRAY raised; a lane in SERVICE, disabled or in CONFIG is not
concerned (R30; log 5).

MACHINE_READY in each state: OFF and an acknowledged FAULT go to READY with the deck not valid, an unacknowledged FAULT notes the
node's word, READY has no effect, CYCLING and STOPPING record a stray (R39). The order in which the events of one change are owed
is the model's (log 22). -/
def Obligations.NodeReportsAreTakenByState : Prop :=
  (∀ (l : Lane) (r : Pins) (s : State),
      let c := Instr.pinfall l r
      let m := s.machine l
      (s.mrp.part ≠ .config → s.enabled l = true →
        (m.state = .ready → exec c s = .next { s with
          owed := s.owed.erase c
          psv := s.psv.put l { m with deck := if m.deckValid then r &&& m.deck else r, deckValid := true } }) ∧
        (m.state ≠ .ready → m.state ≠ .service → exec c s = .next { s with
          owed := s.owed.erase c
          psv := s.psv.put l { m with stray := some ⟨.pinfall r, m.state⟩ }
          dli := { s.dli with notices := noticesRaised (.ofLane .stray l) s.dli.notices } })) ∧
      (s.mrp.part = .config ∨ s.enabled l = false ∨ m.state = .service → exec c s = .next (s.without c))) ∧
  (∀ (l : Lane) (s : State),
      let c := Instr.machineReady l
      let m := s.machine l
      s.mrp.part ≠ .config → s.enabled l = true →
      (m.state = .off → exec c s = .next { s with
        owed := s.owed.erase c ++ [.readyEntry l m.deck false, .readyChange l]
        psv := s.psv.put l { m with state := .ready, deckValid := false }
        dli := { s.dli with notices := noticesRaised (.ofLane .machineReady l) s.dli.notices } }) ∧
      (∀ f, m.fault = some f → m.state = .fault → f.deskAcked = true → exec c s = .next { s with
        owed := s.owed.erase c ++ [.readyEntry l m.deck false, .readyChange l, .gateEvaluation l]
        psv := s.psv.put l { m with state := .ready, deckValid := false, fault := none }
        dli := { s.dli with
          notices := noticesRaised (.ofLane .machineReady l) (s.dli.notices.erase (.ofLane .machineFault l)) } }) ∧
      (∀ f, m.fault = some f → m.state = .fault → f.deskAcked = false → exec c s = .next { s with
        owed := s.owed.erase c
        psv := s.psv.put l { m with fault := some { f with nodeCleared := true } } }) ∧
      (m.state = .ready → exec c s = .next (s.without c)) ∧
      (m.state = .cycling ∨ m.state = .stopping → exec c s = .next { s with
        owed := s.owed.erase c
        psv := s.psv.put l { m with stray := some ⟨.machineReady, m.state⟩ }
        dli := { s.dli with notices := noticesRaised (.ofLane .stray l) s.dli.notices } }))

/-- CYCLE_DONE with the tag of the cycle in flight and no handover: the timer stops, the deck is set by the result and the kind, the
cycle leaves with its report owed, and the machine moves to READY, or to SERVICE when that was requested (R29, R34, R43).

CYCLE_DONE that no cycle in flight takes: with the tag of a late record it completes that record and raises LATE_DONE, otherwise
it overwrites the stray record and raises STRAY; nothing else changes (R36). -/
def Obligations.ACompletionEndsTheCycleOrIsStray : Prop :=
  (∀ (l : Lane) (result : CycleResult) (s : State), ∀ f, (s.machine l).inFlight = some f →
      let c := Instr.cycleDone l f.tag result
      let m := s.machine l
      s.mrp.part ≠ .config → s.enabled l = true → m.state = .cycling ∨ m.state = .stopping → (∀ i, s.cdp.inject = some i → i.lane = l → i.bound = true →
        i.cancelled = true ∨ (s.holds l).halt = true ∨ m.serviceRequested = true) →
      ∃ t, exec c s = .next t ∧
        (∀ k, k ≠ l → t.machine k = s.machine k) ∧
        (t.machine l).inFlight = none ∧ (t.machine l).timer = none ∧ (t.machine l).tag = m.tag ∧
        (t.machine l).serviceRequested = false ∧ (t.machine l).holds = m.holds ∧ (t.machine l).late = m.late ∧
        (t.machine l).stray = m.stray ∧
        (t.machine l).deck = (match result, f.kind with
          | .aborted, _ => m.deck
          | .ok, .fullRack => 1023
          | .ok, .respot p => p
          | .ok, .pitClear => m.deck
          | .ok, .deckOff => 0
          | .ok, .warm => 0) ∧
        (m.serviceRequested = false → (t.machine l).state = .ready ∧
          (t.machine l).deckValid = (match result, f.kind with
            | .aborted, _ => false
            | .ok, .pitClear => m.deckValid
            | .ok, _ => true) ∧
          .readyEntry l (t.machine l).deck (t.machine l).deckValid ∈ t.owed ∧ t.dli = s.dli) ∧
        (m.serviceRequested = true → (t.machine l).state = .service ∧ (t.machine l).deckValid = false ∧
          (t.machine l).fault = none ∧ .gateEvaluation l ∈ t.owed ∧
          t.dli = { s.dli with notices := noticesRaised (.ofLane .serviceReady l) s.dli.notices }) ∧
        .cycleEndReport ⟨l, f, (match result with | .ok => .ok | .aborted => .aborted),
          if m.serviceRequested then .service else .ready⟩ ∈ t.owed ∧
        t.lli = { s.lli with stopMarks := s.lli.stopMarks.put l none } ∧
        t = { s with psv := t.psv, owed := t.owed, dli := t.dli, lli := t.lli, cdp := t.cdp }) ∧
  (∀ (l : Lane) (tag : Byte) (result : CycleResult) (s : State),
      let c := Instr.cycleDone l tag result
      let m := s.machine l
      s.mrp.part ≠ .config → s.enabled l = true → m.state ≠ .service →
      (m.state = .cycling ∨ m.state = .stopping → m.inFlight.map (·.tag) ≠ some tag) →
        (∀ r, m.late = some r → r.tag = tag → exec c s = .next { s with
          owed := s.owed.erase c
          psv := s.psv.put l { m with late := some ⟨tag, some result⟩ }
          dli := { s.dli with notices := noticesRaised (.ofLane .lateDone l) s.dli.notices } }) ∧
        (m.late.map (·.tag) ≠ some tag → exec c s = .next { s with
          owed := s.owed.erase c
          psv := s.psv.put l { m with stray := some ⟨.cycleDone tag result, m.state⟩ }
          dli := { s.dli with notices := noticesRaised (.ofLane .stray l) s.dli.notices } }))

/-- The expiry of a cycle timer in CYCLING or STOPPING: the late record, the deck, the cycle's report, and SERVICE or FAULT with
code 255; a lane without a running cycle has no expiry (R37, R43).

MACHINE_FAULT in every state but SERVICE: the machine is in FAULT with the frame's code and class and both flags no, the deck not
valid, no service requested and no cycle; MACHINE_FAULT is raised; the Halt Line is driven for a SAFETY fault while the
parameter says so, and not otherwise (R38, R192). -/
def Obligations.TimeoutsAndFaultsTakeTheLaneToFault : Prop :=
  (∀ (l : Lane) (s : State),
    let c := Instr.cycleTimerExpiry l
    let m := s.machine l
    (∀ f, m.inFlight = some f → m.state = .cycling ∨ m.state = .stopping → ∃ t, exec c s = .next t ∧
      (∀ k, k ≠ l → t.machine k = s.machine k) ∧
      t.machine l = { m with
        state := if m.serviceRequested then .service else .fault
        deckValid := false
        inFlight := none
        timer := none
        serviceRequested := false
        late := some ⟨f.tag, none⟩
        fault := if m.serviceRequested then none else some ⟨255, .normal, false, false⟩ } ∧
      .cycleEndReport ⟨l, f, .timeout, if m.serviceRequested then .service else .fault⟩ ∈ t.owed ∧
      t.dli = { s.dli with
        notices := noticesRaised (.ofLane (if m.serviceRequested then .serviceReady else .machineFault) l) s.dli.notices } ∧
      t.mrp = s.mrp ∧
      t = { s with psv := t.psv, owed := t.owed, dli := t.dli, cdp := t.cdp }) ∧
    (m.inFlight = none ∨ m.state ≠ .cycling ∧ m.state ≠ .stopping → exec c s = .next (s.without c))) ∧
  (∀ (l : Lane) (code : Byte) (cls : FaultClass) (s : State),
    let c := Instr.machineFault l code cls
    let m := s.machine l
    (s.mrp.part ≠ .config → s.enabled l = true → m.state ≠ .service → ∃ t, exec c s = .next t ∧
      (t.machine l).state = .fault ∧ (t.machine l).fault = some ⟨code, cls, false, false⟩ ∧
      (t.machine l).deckValid = false ∧ (t.machine l).serviceRequested = false ∧ (t.machine l).tag = m.tag ∧
      (t.machine l).late = m.late ∧ (t.machine l).stray = m.stray ∧ (t.machine l).deck = m.deck ∧
      (t.machine l).inFlight = none ∧ (t.machine l).timer = none ∧
      .ofLane .machineFault l ∈ t.dli.notices ∧
      (∀ f, m.inFlight = some f → m.state = .cycling ∨ m.state = .stopping →
        .cycleEndReport ⟨l, f, .fault, .fault⟩ ∈ t.owed) ∧
      (cls = .safety → s.mrp.params.safetyHalts = true → t.mrp.halt.drive = true ∧ t.mrp.halt.observed = true ∧
        t.mrp.halt.cause = some (.safety l) ∧ t.mrp.halt.resumeRequested = false ∧
        (s.mrp.part = .run → t.mrp.part = .halting ∨ t.mrp.part = .halted)) ∧
      (cls = .normal ∨ s.mrp.params.safetyHalts = false → t.mrp = s.mrp ∧ t.brm = s.brm ∧ t.lli = s.lli ∧
        (∀ k, k ≠ l → t.machine k = s.machine k)) ∧
      t = { s with
        psv := t.psv
        owed := t.owed
        dli := { s.dli with notices := t.dli.notices }
        cdp := t.cdp
        mrp := { s.mrp with part := t.mrp.part, halt := t.mrp.halt }
        lli := t.lli
        brm := t.brm }) ∧
    (s.mrp.part = .config ∨ s.enabled l = false ∨ m.state = .service → exec c s = .next (s.without c)))

/-- FAULT_ACK: its table, then desk-acked yes, and with the node's word already given the return to READY; the response carries the
machine state and the fault record still present (R40). The order in which the events of the return are owed is the model's
(log 22). -/
def Obligations.AFaultIsAcknowledged : Prop :=
  ∀ (tag : BitVec 16) (lane : Byte) (s : State), s.responsesQueued < 8 →
    let c := Instr.faultAck tag lane
    let u := takeHead c s
    let refused (r : Result) := Host.Outcome.next (φ := Fault) (ρ := Refusal) (respond tag 24 r [] u)
    (s.mrp.part = .config → exec c s = refused .badState) ∧
    (s.mrp.part ≠ .config → laneOf lane.toNat = none → exec c s = refused .badValue) ∧
    (∀ l, laneOf lane.toNat = some l → s.mrp.part ≠ .config →
      (s.enabled l = false ∨ (s.machine l).state ≠ .fault → exec c s = refused .badState) ∧
      (∀ f, (s.machine l).fault = some f → s.enabled l = true → (s.machine l).state = .fault →
        (f.nodeCleared = false → exec c s = .next (respond tag 24 .ok
          ([5] ++ (1 :: FaultRecord.bytes { f with deskAcked := true }))
          { u with psv := s.psv.put l { s.machine l with fault := some { f with deskAcked := true } } })) ∧
        (f.nodeCleared = true → exec c s = .next (respond tag 24 .ok [2, 0]
          { u with
            psv := s.psv.put l { s.machine l with state := .ready, deckValid := false, fault := none }
            owed := s.owed ++ [.readyEntry l (s.machine l).deck false, .readyChange l, .gateEvaluation l]
            dli := { u.dli with
              notices := noticesRaised (.ofLane .machineReady l) (s.dli.notices.erase (.ofLane .machineFault l)) } }))))

/-- SERVICE_ENTER: its table; from READY and FAULT the machine enters SERVICE at once with the deck not valid and no fault record, in
CYCLING and STOPPING service is requested and the cycle runs on (R42, R43).

SERVICE_EXIT: its table; from SERVICE the machine goes to OFF with the deck not valid, a PROBE marked and SERVICE_READY
withdrawn; a service request not yet honoured is withdrawn (R44). -/
def Obligations.ServiceIsEnteredAndLeft : Prop :=
  (∀ (tag : BitVec 16) (lane : Byte) (s : State), s.responsesQueued < 8 →
      let c := Instr.serviceEnter tag lane
      let u := takeHead c s
      let refused (r : Result) := Host.Outcome.next (φ := Fault) (ρ := Refusal) (respond tag 25 r [] u)
      (s.mrp.part = .config → exec c s = refused .badState) ∧
      (s.mrp.part ≠ .config → laneOf lane.toNat = none → exec c s = refused .badValue) ∧
      (∀ l, laneOf lane.toNat = some l → s.mrp.part ≠ .config →
        let m := s.machine l
        (s.enabled l = false → exec c s = refused .badState) ∧
        (s.enabled l = true → s.mrp.part = .halting ∨ s.mrp.part = .halted → exec c s = refused .halted) ∧
        (s.enabled l = true → s.mrp.part = .run → m.state = .off ∨ m.state = .service → exec c s = refused .badState) ∧
        (s.enabled l = true → s.mrp.part = .run → m.state = .ready ∨ m.state = .fault →
          ∃ t, exec c s = .next t ∧ Answered c tag 25 .ok [6, 0] s t ∧
            t.psv = s.psv.put l { m with
              state := .service
              deckValid := false
              serviceRequested := false
              timer := none
              inFlight := none
              fault := none } ∧
            .gateEvaluation l ∈ t.owed ∧ (m.state = .ready → .readyChange l ∈ t.owed) ∧
            t.dli.notices = noticesRaised (.ofLane .serviceReady l)
              (if m.state = .fault then s.dli.notices.erase (.ofLane .machineFault l) else s.dli.notices) ∧
            t = { u with psv := t.psv, owed := t.owed, dli := { t.dli with linkErrors := s.dli.linkErrors } }) ∧
        (s.enabled l = true → s.mrp.part = .run → m.state = .cycling ∨ m.state = .stopping →
          exec c s = .next (respond tag 25 .ok [BitVec.ofNat 8 m.state.code, 1]
            { u with psv := s.psv.put l { m with serviceRequested := true } })))) ∧
  (∀ (tag : BitVec 16) (lane : Byte) (s : State), s.responsesQueued < 8 →
      let c := Instr.serviceExit tag lane
      let u := takeHead c s
      let refused (r : Result) := Host.Outcome.next (φ := Fault) (ρ := Refusal) (respond tag 26 r [] u)
      (s.mrp.part = .config → exec c s = refused .badState) ∧
      (s.mrp.part ≠ .config → laneOf lane.toNat = none → exec c s = refused .badValue) ∧
      (∀ l, laneOf lane.toNat = some l → s.mrp.part ≠ .config →
        let m := s.machine l
        let requested := (m.state = .cycling ∨ m.state = .stopping) ∧ m.serviceRequested = true
        (s.enabled l = false ∨ (m.state ≠ .service ∧ ¬ requested) → exec c s = refused .badState) ∧
        (s.enabled l = true → m.state = .service → exec c s = .next (respond tag 26 .ok [1]
          { u with
            psv := s.psv.put l { m with state := .off, deckValid := false }
            owed := s.owed ++ [.gateEvaluation l]
            lli := { s.lli with probeMarks := s.lli.probeMarks.put l true }
            dli := { u.dli with notices := s.dli.notices.erase (.ofLane .serviceReady l) } })) ∧
        (s.enabled l = true → requested → exec c s = .next (respond tag 26 .ok [BitVec.ofNat 8 m.state.code]
          { u with psv := s.psv.put l { m with serviceRequested := false } }))))

/-- LANE_HOLD claims DESK and LANE_RELEASE releases it, changing no other cause; their table; a change is sent to the Cycle Dispatcher
and the Billing Unit (R48, R49, R50), owed in the model's order (log 22). -/
def Obligations.TheDeskHoldsAndReleasesALane : Prop :=
  ∀ (tag : BitVec 16) (lane : Byte) (hold : Bool) (s : State), s.responsesQueued < 8 →
    let c := if hold then Instr.laneHold tag lane else Instr.laneRelease tag lane
    let code := if hold then 27 else 28
    let u := takeHead c s
    let refused (r : Result) := Host.Outcome.next (φ := Fault) (ρ := Refusal) (respond tag code r [] u)
    (s.mrp.part = .config → exec c s = refused .badState) ∧
    (s.mrp.part ≠ .config → laneOf lane.toNat = none → exec c s = refused .badValue) ∧
    (∀ l, laneOf lane.toNat = some l → s.mrp.part ≠ .config →
      (s.enabled l = false → exec c s = refused .badState) ∧
      (s.enabled l = true → exec c s = .next
        (respond tag code .ok [HoldSet.byte { s.holds l with desk := hold }]
          { u with
            psv := s.psv.put l { s.machine l with holds := { s.holds l with desk := hold } }
            owed := s.owed ++
              (if (s.holds l).desk = hold then [] else [.holdSetChange l, .gateEvaluation l]) })))

/-! ### Cycle dispatch -/

/-- A lane's entry into or exit from READY and a change of its hold set are, at the Cycle Dispatcher, nothing but a dispatch pass (R65).

A pass settles the batch head; then, while a slot is free and a request is eligible, it grants the one chosen and the pass begins
anew; so it ends when no slot is free or nothing is eligible, never beyond the budget (R52, R65, R67).

Settling moves the head's cursor down past lanes that are disabled or OFF; an entry whose cursor moves below its first lane
leaves, and the next is settled in turn; BATCH_LOW is raised when the count comes from above the low level to it or below
(R61, R62). -/
def Obligations.PassesGrantUntilNothingIsEligible : Prop :=
  (∀ (l : Lane) (s : State),
      exec (.readyChange l) s = .next (dispatchPass (s.without (.readyChange l))) ∧
      exec (.holdSetChange l) s = .next (dispatchPass (s.without (.holdSetChange l)))) ∧
  (∀ s : State,
      let u := settleBatch s
      let t := dispatchPass s
      (u.slotsInUse < s.mrp.params.slotBudget → ∀ c, choose u = some c → t = dispatchPass (grantChoice c u)) ∧
      (s.mrp.params.slotBudget ≤ u.slotsInUse ∨ choose u = none → t = u) ∧
      (s.mrp.params.slotBudget ≤ t.slotsInUse ∨ choose t = none) ∧
      (s.slotsInUse ≤ s.mrp.params.slotBudget → t.slotsInUse ≤ s.mrp.params.slotBudget) ∧
      t = { s with
        owed := t.owed, psv := t.psv, cdp := t.cdp, lli := { s.lli with cycleList := t.lli.cycleList }
        dli := { s.dli with notices := t.dli.notices } }) ∧
  (∀ s : State,
      let q := settledBatch s s.cdp.batch
      let low := s.mrp.params.batchLow
      settleBatch s = { s with
        cdp := { s.cdp with batch := q }
        dli := { s.dli with notices :=
          if low < s.cdp.batch.length ∧ q.length ≤ low then noticesRaised (.ofPart .batchLow) s.dli.notices
          else s.dli.notices } }) ∧
  (∀ s : State,
      let skipped (n : Nat) := ∀ l, laneOf n = some l → s.enabled l = false ∨ (s.machine l).state = .off
      settledBatch s [] = [] ∧
      (∀ (e : BatchEntry) (rest : List BatchEntry),
        (∀ c, 1 ≤ c → e.first ≤ c → c ≤ e.cursor → ¬ skipped c → (∀ n, c < n → n ≤ e.cursor → skipped n) →
          settledBatch s (e :: rest) = { e with cursor := c } :: rest) ∧
        ((∀ n, 1 ≤ n → e.first ≤ n → n ≤ e.cursor → skipped n) → settledBatch s (e :: rest) = settledBatch s rest)))

/-- The choice: the request of the highest-ranked class that has an eligible one; within INJECT the slot's request, neither bound nor
cancelled, its lane READY without HALT; within AUTO the first lane in the order that starts after the rotation pointer and ends
with its own lane, its AUTO-origin back-up before its entry; within BATCH the lowest lane's BATCH-origin back-up and then the head's cursor
lane; all but the inject on a READY lane with an empty hold set (R55, R61, R64, R66).

A grant empties its source, an AUTO grant moving the pointer to the lane and a grant of the batch head its cursor down one lane
(R55, R61, R67); it advances the cycle tag, puts the cycle in flight, moves the machine to CYCLING with its timer at the cycle
timeout and lists the CYCLE (R31), with the change of READY owed (log 24).

A stop decision in CYCLING moves the machine to STOPPING, restarts the timer and marks a STOP with the tag of the cycle in flight, a mark
already set being unchanged; it has no effect in any other state (R16, R33). -/
def Obligations.GrantsGoToTheEligibleChoice : Prop :=
  (∀ s : State,
      let free (l : Lane) := (s.machine l).state = .ready ∧ s.holds l = ⟨false, false, false, false, false⟩
      let turn (l : Lane) := (l.val + 31 - s.cdp.pointer.val) % 32
      let autoAt (l : Lane) (c : Choice) := free l ∧
        ((∃ k, s.backup l = some ⟨k, .auto⟩ ∧ c = .autoBackup l k) ∨
          ∃ a, s.backup l = none ∧ s.auto l = some a ∧ c = .autoEntry l a.kind)
      let backupAt (l : Lane) (c : Choice) := free l ∧ ∃ k, s.backup l = some ⟨k, .batch⟩ ∧ c = .batchBackup l k
      let headAt (c : Choice) := ∃ e l, s.cdp.batch.head? = some e ∧ laneOf e.cursor = some l ∧ free l ∧ s.backup l = none ∧
        c = .batchHead l e.kind
      (∀ c, choiceIn s .inject = some c ↔ ∃ l k p, s.cdp.inject = some ⟨l, k, p, false, false⟩ ∧
        (s.machine l).state = .ready ∧ (s.holds l).halt = false ∧ c = .inject l k) ∧
      (∀ c, choiceIn s .auto = some c ↔ ∃ l, autoAt l c ∧ ∀ k d, turn k < turn l → ¬ autoAt k d) ∧
      (∀ c, choiceIn s .batch = some c ↔
        (∃ l, backupAt l c ∧ ∀ k d, k < l → ¬ backupAt k d) ∨ ((∀ k d, ¬ backupAt k d) ∧ headAt c)) ∧
      (∀ c, choose s = some c ↔ ∃ higher cls lower, s.mrp.params.ranks = higher ++ cls :: lower ∧
        choiceIn s cls = some c ∧ ∀ x ∈ higher, choiceIn s x = none) ∧
      (choose s = none ↔ ∀ cls ∈ s.mrp.params.ranks, choiceIn s cls = none)) ∧
  (∀ (c : Choice) (s : State),
      let served (x : Dispatcher) : State := { s with cdp := x }
      grantChoice c s = (match c with
        | .inject l k => grant l k .inject false (served { s.cdp with inject := none })
        | .autoEntry l k => grant l k .auto false (served { s.cdp with auto := s.cdp.auto.put l none, pointer := l })
        | .autoBackup l k => grant l k .auto true (served { s.cdp with backups := s.cdp.backups.put l none, pointer := l })
        | .batchBackup l k => grant l k .batch true (served { s.cdp with backups := s.cdp.backups.put l none })
        | .batchHead l k => grant l k .batch false (served { s.cdp with
            batch := (s.cdp.batch.take 1).map (fun e => { e with cursor := e.cursor - 1 }) ++ s.cdp.batch.drop 1 }))) ∧
  (∀ (l : Lane) (kind : CycleKind) (cls : CycleClass) (fromBackup : Bool) (s : State),
      let m := s.machine l
      let t := grant l kind cls fromBackup s
      t = { s with
        owed := t.owed
        psv := s.psv.put l { m with
          tag := m.tag + 1
          inFlight := some ⟨m.tag + 1, kind, cls, fromBackup⟩
          state := .cycling
          timer := some s.mrp.params.cycleTimeout }
        lli := { s.lli with cycleList :=
          if ∃ e ∈ s.lli.cycleList, e.1 = l then s.lli.cycleList.map fun e => if e.1 = l then (l, m.tag + 1) else e
          else s.lli.cycleList ++ [(l, m.tag + 1)] } } ∧
      (m.state = .ready → t.owed = s.owed ++ [.readyChange l]) ∧
      (m.state = .cycling ∨ m.state = .stopping → t.owed = s.owed) ∧
      (∀ f, m.inFlight = some f → m.state = .cycling → stopLane l s = { s with
        psv := s.psv.put l { m with state := .stopping, timer := some s.mrp.params.cycleTimeout }
        lli := { s.lli with stopMarks := s.lli.stopMarks.put l (some ((s.lli.stopMarks.at l).getD f.tag)) } }) ∧
      (m.state ≠ .cycling → stopLane l s = s))

/-- An AUTO post merges: FULL_RACK held stays, a RESPOT held takes the post, and an empty place takes it; into an AUTO-origin
back-up when the lane holds one and into the pending set otherwise; a dispatch pass follows, and a post that a block has handed
over was merged in that block's event (R54, R65; log 4).

The settlement of a cycle end report: an aborted AUTO or BATCH cycle becomes the back-up of a lane that has none, unless the
discard-on-abort flag is yes or a live FULL_RACK inject is bound to the lane and the cycle is FULL_RACK or RESPOT; the flag becomes
no (R69). A bound inject that is cancelled leaves the slot; on OK or ABORTED into READY without HALT it is granted on the same slot;
otherwise it stays unbound (R70).

The end of a cycle by completion, timeout or fault settles its report within its event, the grant of a handover standing in place of the
move to READY; its CYCLE_END_REPORT is then the pass alone, and a report that no event owes is settled as it is taken
(R35, R65; log 3). -/
def Obligations.RequestsMergeAndAreKept : Prop :=
  (∀ (l : Lane) (a : AutoRequest) (s : State),
      let c := Instr.autoPost l a
      (c ∈ s.owed → exec c s = .next (dispatchPass (s.without c))) ∧
      (c ∉ s.owed → exec c s = .next (dispatchPass (mergePost l a s))) ∧
      (∀ b, s.backup l = some b → b.origin = .auto →
        mergePost l a s = { s with cdp := { s.cdp with
          backups := s.cdp.backups.put l (some ⟨if b.kind = .fullRack then .fullRack else a.kind, .auto⟩) } }) ∧
      ((s.backup l).map (·.origin) ≠ some .auto →
        mergePost l a s = { s with cdp := { s.cdp with
          auto := s.cdp.auto.put l (some (if s.auto l = some .fullRack then .fullRack else a)) } })) ∧
  (∀ s : State,
      let bound (l : Lane) := s.cdp.inject.filter fun i => i.lane == l && i.bound
      let granted (r : CycleReport) : Option CycleKind := ((bound r.lane).filter fun i => decide (i.cancelled = false ∧
        (r.outcome = .ok ∨ r.outcome = .aborted) ∧ r.next = .ready ∧ (s.holds r.lane).halt = false ∧
        ((s.machine r.lane).state = .cycling ∨ (s.machine r.lane).state = .stopping))).map (·.kind)
      let replaced (r : CycleReport) := (∃ i, bound r.lane = some i ∧ i.cancelled = false ∧ i.kind = .fullRack) ∧
        (r.cycle.kind = .fullRack ∨ ∃ p, r.cycle.kind = .respot p)
      let kept (r : CycleReport) := r.outcome = .aborted ∧ s.cdp.discardOnAbort.at r.lane = false ∧ r.cycle.cls ≠ .inject ∧
        ¬ replaced r ∧ s.backup r.lane = none
      let settled (r : CycleReport) (x : Dispatcher) :=
        x.discardOnAbort = s.cdp.discardOnAbort.put r.lane false ∧
        (kept r → x.backups = s.cdp.backups.put r.lane (some ⟨r.cycle.kind, r.cycle.cls⟩)) ∧
        (¬ kept r → x.backups = s.cdp.backups) ∧
        (bound r.lane = none → x.inject = s.cdp.inject) ∧
        (∀ i, bound r.lane = some i →
          x.inject = if i.cancelled = true ∨ granted r ≠ none then none else some { i with bound := false }) ∧
        x = { s.cdp with discardOnAbort := x.discardOnAbort, backups := x.backups, inject := x.inject }
      (∀ r : CycleReport,
        let c := Instr.cycleEndReport r
        (c ∈ s.owed → exec c s = .next (dispatchPass (s.without c))) ∧
        (c ∉ s.owed → ∃ x, settled r x ∧
          (granted r = none → exec c s = .next (dispatchPass { s with cdp := x })) ∧
          (∀ k, granted r = some k →
            exec c s = .next (dispatchPass (grant r.lane k .inject false { s with cdp := x }))))) ∧
      (∀ l f, (s.machine l).inFlight = some f → (s.machine l).state = .cycling ∨ (s.machine l).state = .stopping →
        let m := s.machine l
        (∀ result, s.mrp.part ≠ .config → s.enabled l = true →
          let c := Instr.cycleDone l f.tag result
          let r : CycleReport := ⟨l, f, (match result with | .ok => .ok | .aborted => .aborted),
            if m.serviceRequested then .service else .ready⟩
          ∃ t, exec c s = .next t ∧ settled r t.cdp ∧
            (∀ k, granted r = some k → t.slotsInUse = s.slotsInUse ∧ t = { s with
              owed := s.owed.erase c ++ [.cycleEndReport r]
              psv := s.psv.put l { m with
                deck := (match result, f.kind with
                  | .aborted, _ => m.deck
                  | .ok, .fullRack => 1023
                  | .ok, .respot p => p
                  | .ok, .pitClear => m.deck
                  | .ok, _ => 0)
                deckValid := (match result, f.kind with
                  | .aborted, _ => false
                  | .ok, .pitClear => m.deckValid
                  | .ok, _ => true)
                tag := m.tag + 1
                inFlight := some ⟨m.tag + 1, k, .inject, false⟩
                state := .cycling
                timer := some s.mrp.params.cycleTimeout }
              lli := { s.lli with
                stopMarks := s.lli.stopMarks.put l none
                cycleList :=
                  if ∃ e ∈ s.lli.cycleList, e.1 = l then s.lli.cycleList.map fun e => if e.1 = l then (l, m.tag + 1) else e
                  else s.lli.cycleList ++ [(l, m.tag + 1)] }
              cdp := t.cdp })) ∧
        (∃ t, exec (.cycleTimerExpiry l) s = .next t ∧
          settled ⟨l, f, .timeout, if m.serviceRequested then .service else .fault⟩ t.cdp) ∧
        (∀ code cls, s.mrp.part ≠ .config → s.enabled l = true →
          ∃ t, exec (.machineFault l code cls) s = .next t ∧ settled ⟨l, f, .fault, .fault⟩ t.cdp)))

/-- INJECT: its table; the slot takes the request, the preemption check and a pass follow, and the response says GRANTED with the lane's
new tag, or BOUND or WAITING with the slot's content (R56, R67; the codes are log 15).

The preemption check: a waiting request with preempt binds to its lane when that is CYCLING without HALT a cycle of a class ranked
below INJECT, and a stop decision is made for it; otherwise nothing happens (R33, R68). A PARAM_SET of new class ranks makes the check
again by the new ranks, and a pass follows (R53).

INJECT_CANCEL: its table; a bound request is marked cancelled and stays, an unbound one leaves the slot, and a pass follows (R57, R65). -/
def Obligations.AnInjectIsTakenOrCancelled : Prop :=
  let binds (i : InjectRequest) (f : Cycle) (s : State) := i.preempt = true ∧ i.bound = false ∧ i.cancelled = false ∧
    (s.machine i.lane).state = .cycling ∧ (s.holds i.lane).halt = false ∧
    s.mrp.params.ranks.idxOf .inject < s.mrp.params.ranks.idxOf f.cls
  (∀ (s : State) (i : InjectRequest), s.cdp.inject = some i →
      (∀ f, (s.machine i.lane).inFlight = some f → binds i f s → preemptionCheck s = { s with
        cdp := { s.cdp with inject := some { i with bound := true } }
        psv := s.psv.put i.lane { s.machine i.lane with state := .stopping, timer := some s.mrp.params.cycleTimeout }
        lli := { s.lli with stopMarks := s.lli.stopMarks.put i.lane (some ((s.lli.stopMarks.at i.lane).getD f.tag)) } }) ∧
      ((∀ f, (s.machine i.lane).inFlight = some f → ¬ binds i f s) → preemptionCheck s = s)) ∧
  (∀ (tag : BitVec 16) (r1 r2 r3 : Byte) (s : State), s.responsesQueued < 8 →
      ∀ a b c, classOf r1.toNat = some a → classOf r2.toNat = some b → classOf r3.toNat = some c → [a, b, c].Nodup →
      let e := Instr.paramSet tag 255 r1 r2 r3 255 255 255 65535 255
      let u := takeHead e s
      let ranked := { u with mrp := { s.mrp with params := { s.mrp.params with ranks := [a, b, c] } } }
      exec e s = .next (respond tag 3 .ok (Params.bytes { s.mrp.params with ranks := [a, b, c] })
        (dispatchPass (if s.mrp.params.ranks = [a, b, c] then ranked else preemptionCheck ranked)))) ∧
  (∀ (tag : BitVec 16) (lane kind : Byte) (pattern : BitVec 16) (preempt : Byte) (s : State), s.responsesQueued < 8 →
      let c := Instr.inject tag lane kind pattern preempt
      let u := takeHead c s
      let refused (r : Result) := Host.Outcome.next (φ := Fault) (ρ := Refusal) (respond tag 32 r [] u)
      let good := 1 ≤ kind.toNat ∧ kind.toNat ≤ 3 ∧ (kind = 2 → pattern.toNat ≤ 1023) ∧ preempt.toNat ≤ 1
      (s.mrp.part = .config → exec c s = refused .badState) ∧
      (s.mrp.part ≠ .config → laneOf lane.toNat = none ∨ ¬ good → exec c s = refused .badValue) ∧
      (∀ l, laneOf lane.toNat = some l → s.mrp.part ≠ .config → good →
        (s.enabled l = false → exec c s = refused .badState) ∧
        (s.enabled l = true → s.mrp.part ≠ .run → exec c s = refused .halted) ∧
        (s.enabled l = true → s.mrp.part = .run → s.cdp.inject ≠ none → exec c s = refused .busy) ∧
        (s.enabled l = true → s.mrp.part = .run → s.cdp.inject = none →
          let k : CycleKind := if kind = 1 then .fullRack else if kind = 2 then .respot (pattern.setWidth 10) else .pitClear
          let request : InjectRequest := ⟨l, k, preempt = 1, false, false⟩
          let t := dispatchPass (preemptionCheck { u with cdp := { s.cdp with inject := some request } })
          let m := s.machine l
          let slot (bound : Bool) : List Byte := [lane, kind] ++ (if kind = 2 then 1 :: bytes16 pattern else [0]) ++
            [preempt, if bound then 1 else 0, 0]
          let bound := ∃ f, m.inFlight = some f ∧ binds request f s
          (t.cdp.inject = none →
            exec c s = .next (respond tag 32 .ok [1, 1, m.tag + 1, 0] t) ∧ m.state = .ready ∧
            (t.machine l).state = .cycling ∧ (t.machine l).tag = m.tag + 1 ∧
            (t.machine l).inFlight = some ⟨m.tag + 1, k, .inject, false⟩) ∧
          (bound → t.cdp.inject = some { request with bound := true } ∧ (t.machine l).state = .stopping ∧
            exec c s = .next (respond tag 32 .ok ([2, 0, 1] ++ slot true) t)) ∧
          (t.cdp.inject ≠ none → ¬ bound → t.cdp.inject = some request ∧
            exec c s = .next (respond tag 32 .ok ([3, 0, 1] ++ slot false) t))))) ∧
  (∀ (tag : BitVec 16) (lane : Byte) (s : State), s.responsesQueued < 8 →
      let c := Instr.injectCancel tag lane
      let u := takeHead c s
      let refused (r : Result) := Host.Outcome.next (φ := Fault) (ρ := Refusal) (respond tag 33 r [] u)
      (s.mrp.part = .config → exec c s = refused .badState) ∧
      (s.mrp.part ≠ .config → laneOf lane.toNat = none → exec c s = refused .badValue) ∧
      (∀ l, laneOf lane.toNat = some l → s.mrp.part ≠ .config →
        (s.cdp.inject = none → exec c s = refused .badState) ∧
        (∀ i, s.cdp.inject = some i →
          (i.lane ≠ l ∨ i.cancelled = true → exec c s = refused .badState) ∧
          (i.lane = l → i.cancelled = false → i.bound = true →
            exec c s = .next (respond tag 33 .ok (1 :: InjectRequest.bytes { i with cancelled := true })
              (dispatchPass { u with cdp := { s.cdp with inject := some { i with cancelled := true } } }))) ∧
          (i.lane = l → i.cancelled = false → i.bound = false →
            exec c s = .next (respond tag 33 .ok [0] (dispatchPass { u with cdp := { s.cdp with inject := none } }))))))

/-- BATCH_ADD: its table; the entry is appended with its cursor at the last lane, BATCH_LOW withdrawn when the count comes above the low
level, and a pass follows (R59, R62). BATCH_FLUSH: the queue is emptied, BATCH_LOW raised when the count was above the low level,
and the number removed answered (R60, R62). An add to a count that is above the level already withdraws it too, by the model's
choice (log 19). -/
def Obligations.BatchEntriesAreAddedAndFlushed : Prop :=
  ∀ (tag : BitVec 16) (first last kind : Byte) (s : State), s.responsesQueued < 8 →
    let c := Instr.batchAdd tag first last kind
    let u := takeHead c s
    let refused (r : Result) := Host.Outcome.next (φ := Fault) (ρ := Refusal) (respond tag 34 r [] u)
    let good := 1 ≤ first.toNat ∧ first.toNat ≤ last.toNat ∧ last.toNat ≤ 32 ∧ (kind = 1 ∨ kind = 4 ∨ kind = 5)
    (s.mrp.part = .config → exec c s = refused .badState) ∧
    (s.mrp.part ≠ .config → ¬ good → exec c s = refused .badValue) ∧
    (good → s.mrp.part = .halting ∨ s.mrp.part = .halted → exec c s = refused .halted) ∧
    (good → s.mrp.part = .run → 16 ≤ s.cdp.batch.length → exec c s = refused .full) ∧
    (good → s.mrp.part = .run → s.cdp.batch.length < 16 → ∀ k, batchKindOf kind.toNat = some k →
      let added := { u with
        cdp := { s.cdp with batch := s.cdp.batch ++ [⟨first.toNat, last.toNat, k, last.toNat⟩] }
        dli := { u.dli with
          notices := if s.mrp.params.batchLow < s.cdp.batch.length + 1 then s.dli.notices.erase (.ofPart .batchLow)
            else s.dli.notices } }
      exec c s = .next (respond tag 34 .ok [BitVec.ofNat 8 (dispatchPass added).cdp.batch.length] (dispatchPass added))) ∧
    (let d := Instr.batchFlush tag
     let v := takeHead d s
     (s.mrp.part = .config → exec d s = .next (respond tag 35 .badState [] v)) ∧
     (s.mrp.part ≠ .config → exec d s = .next (respond tag 35 .ok [BitVec.ofNat 8 s.cdp.batch.length]
       (dispatchPass { v with
         cdp := { s.cdp with batch := [] }
         dli := { v.dli with
           notices := if s.mrp.params.batchLow < s.cdp.batch.length then noticesRaised (.ofPart .batchLow) s.dli.notices
             else s.dli.notices } }))))

/-! ### Deliveries -/

/-- BALL_PASS at the Scoring Engine: with no delivery in flight one begins, LIVE exactly under the six live conditions and DEAD
otherwise, with the speed, the deck and fouled no; a second ball changes nothing (R75, R76). FOUL marks the delivery in
flight and is discarded without one (R77). Nothing else changes.

DELIVERY_VOID: its table; the record becomes NONE, and a target post is made when a team is BOWLING on a READY lane; the response
carries the record as it stood and whether the post was made (R87). The post is merged within the event and its pass left owed
as autoPost (log 4). -/
def Obligations.DeliveriesBeginAndEnd : Prop :=
  (∀ (l : Lane) (speed : Nat) (s : State),
      let c := Instr.ballPass l speed
      let d := Instr.foul l
      (s.mrp.part ≠ .config → s.enabled l = true →
        (s.delivery l = none → ∃ t, exec c s = .next t ∧
          t = { s with owed := s.owed.erase c, sce := { s.sce with deliveries := t.sce.deliveries } } ∧
          (∀ k, k ≠ l → t.delivery k = s.delivery k) ∧
          (t.delivery l).map (fun x => (x.speed, x.before, x.fouled)) = some (speed, (s.machine l).deck, false) ∧
          ((t.delivery l).map (·.live) = some true ↔
            (∃ x, s.seatedTeam l = some x ∧ x.2.state = .bowling ∧ (s.machine l).deck = x.2.target) ∧
            (s.machine l).state = .ready ∧ (s.machine l).deckValid = true ∧ s.auto l = none ∧ s.backup l = none)) ∧
        (s.delivery l ≠ none → exec c s = .next (s.without c)) ∧
        (∀ x, s.delivery l = some x → exec d s = .next { s with
          owed := s.owed.erase d
          sce := { s.sce with deliveries := s.sce.deliveries.put l (some { x with fouled := true }) } }) ∧
        (s.delivery l = none → exec d s = .next (s.without d))) ∧
      (s.mrp.part = .config ∨ s.enabled l = false →
        exec c s = .next (s.without c) ∧ exec d s = .next (s.without d))) ∧
  (∀ (tag : BitVec 16) (lane : Byte) (s : State), s.responsesQueued < 8 →
      let c := Instr.deliveryVoid tag lane
      let u := takeHead c s
      let refused (r : Result) := Host.Outcome.next (φ := Fault) (ρ := Refusal) (respond tag 40 r [] u)
      (s.mrp.part = .config → exec c s = refused .badState) ∧
      (s.mrp.part ≠ .config → laneOf lane.toNat = none → exec c s = refused .badValue) ∧
      (∀ l, laneOf lane.toNat = some l → s.mrp.part ≠ .config →
        let voided := { u with sce := { s.sce with deliveries := s.sce.deliveries.put l none } }
        (s.enabled l = false ∨ s.delivery l = none → exec c s = refused .badState) ∧
        (s.enabled l = true → s.delivery l ≠ none → s.bowlingTeam l = none ∨ (s.machine l).state ≠ .ready →
          exec c s = .next (respond tag 40 .ok (deliveryBytes (s.delivery l) ++ [0]) voided)) ∧
        (∀ x, s.bowlingTeam l = some x → s.enabled l = true → s.delivery l ≠ none → (s.machine l).state = .ready →
          let post : AutoRequest := if x.2.target = 1023 then .fullRack else .respot x.2.target
          exec c s = .next (respond tag 40 .ok (deliveryBytes (s.delivery l) ++ [1])
            (mergePost l post (voided.owing [.autoPost l post]))))))

/-- A PINFALL whose view does not show READY is not accepted and changes nothing at the Scoring Engine (R79). Accepted, with a DEAD
record, a NONE record that fails the live conditions or no team BOWLING, it is not scored: the record becomes NONE, and a
target post is made for a team BOWLING there (R80, R83, R84).

A machine's entry into READY: the delivery is abandoned, and a target post is made for a team BOWLING there when the deck is not valid
or differs from its target, and none otherwise (R85, R84). A post is merged within its event and its pass left owed as autoPost
(log 4). -/
def Obligations.TargetsArePosted : Prop :=
  (∀ (l : Lane) (r : Pins) (v : PinfallView) (s : State),
      let c := Instr.pinfallScoring l r v
      let settled := { s with
        owed := s.owed.erase c
        sce := { s.sce with deliveries := s.sce.deliveries.put l none } }
      (v.machine ≠ .ready ∨ s.mrp.part = .config ∨ s.enabled l = false → exec c s = .next (s.without c)) ∧
      (v.machine = .ready → s.mrp.part ≠ .config → s.enabled l = true →
        (s.bowlingTeam l = none → exec c s = .next settled) ∧
        (∀ x, s.bowlingTeam l = some x →
          (s.delivery l).map (·.live) = some false ∨
            (s.delivery l = none ∧ ¬ (v.valid = true ∧ v.deck = x.2.target ∧ s.auto l = none ∧ s.backup l = none)) →
          let post : AutoRequest := if x.2.target = 1023 then .fullRack else .respot x.2.target
          exec c s = .next (mergePost l post (settled.owing [.autoPost l post]))))) ∧
  (∀ (l : Lane) (deck : Pins) (valid : Bool) (s : State),
      let c := Instr.readyEntry l deck valid
      let abandoned := { s with
        owed := s.owed.erase c
        sce := { s.sce with deliveries := s.sce.deliveries.put l none } }
      (s.bowlingTeam l = none → exec c s = .next abandoned) ∧
      (∀ x, s.bowlingTeam l = some x →
        (valid = true → deck = x.2.target → exec c s = .next abandoned) ∧
        (valid = false ∨ deck ≠ x.2.target →
          let post : AutoRequest := if x.2.target = 1023 then .fullRack else .respot x.2.target
          exec c s = .next (mergePost l post (abandoned.owing [.autoPost l post])))))

/-- A scored ball: its record counts the pins of the view's deck less those standing after, none when fouled, with its flags and
speed; it is placed as the next ball of the current bowler's frame, the bowler's frames are computed anew, the reservation is
cleared, the delivery is NONE, the display stale and the step's AUTO post made; the team goes to its next ball, its next
bowler or, in OPEN mode before frame 10, its next frame (R80, R81, R82, R100, R103). The post is merged within the event and its
pass left owed as autoPost (log 4).

The last bowler's frame 10 in OPEN mode ends the game within the event (R103, R106). In PAIRED mode the end of the last bowler's frame
moves the team to WAITING_CROSS, after frame 10 with the game recorded and charged, and makes the cross check (R113). -/
def Obligations.LiveBallsAreScored : Prop :=
  ∀ (l : Lane) (r : Pins) (s : State), ∀ x, s.bowlingTeam l = some x →
    let team := x.2
    ∀ bowler, team.roster[team.bowler - 1]? = some bowler →
    ∀ (v : PinfallView), v.machine = .ready → s.mrp.part ≠ .config → s.enabled l = true →
    let c := Instr.pinfallScoring l r v
    let after := if v.valid then r &&& v.deck else r
    let seen := (s.delivery l).map (·.live) = some true
    let unseen := s.delivery l = none ∧ v.valid = true ∧ v.deck = team.target ∧ s.auto l = none ∧ s.backup l = none
    let fouled := (s.delivery l).any (·.fouled)
    let ball : Ball :=
      { pins := if fouled then 0 else pinCount v.deck - pinCount after
        after := after
        foul := fouled
        unseen := (s.delivery l).isNone
        mismatch := v.valid && decide (r &&& ~~~v.deck ≠ 0)
        amended := false
        speed := (s.delivery l).map (·.speed) }
    let balls := (bowler.frame team.frame).balls ++ [ball]
    let st := frameStep team.frame balls v.deck
    let post : AutoRequest := if st.target = 1023 then .fullRack else .respot st.target
    let scored : Team := { team with
      roster := team.roster.set (team.bowler - 1) (bowler.withBalls team.frame balls)
      recent := some ⟨team.bowler, team.frame, balls.length⟩
      reservation := none
      target := st.target }
    let last := st.ends = true ∧ team.roster.length ≤ team.bowler
    let placed : State := { s with
      owed := s.owed.erase c ++ [.autoPost l post]
      cdp := (mergePost l post s).cdp
      lli := { s.lli with console := s.lli.console.put l ⟨true, (s.lli.console.at l).notices⟩ }
      sce := { s.sce with teams := s.sce.teams.put x.1 (some scored) } }
    let waits (t : Team) (w : State) : State := { w with sce := { w.sce with teams := w.sce.teams.put x.1 (some { t with
      state := .waitingCross, bowler := 1, ball := 1, target := 1023 }) } }
    let settled (w : State) : State := { w with sce := { w.sce with deliveries := w.sce.deliveries.put l none } }
    seen ∨ unseen →
    (last → s.mode (pairOf l) = .opened → team.frame = 10 →
      exec c s = .next (settled (finishGame x.1 (recordGame x.1 placed)))) ∧
    (last → s.mode (pairOf l) = .paired → team.frame ≠ 10 →
      exec c s = .next (settled (crossCheck x.1 (waits scored placed)))) ∧
    (last → s.mode (pairOf l) = .paired → team.frame = 10 → ∃ t, (recordGame x.1 placed).team x.1 = some t ∧
      exec c s = .next (settled (crossCheck x.1 (waits t (recordGame x.1 placed))))) ∧
    ((st.ends = false ∨ team.bowler < team.roster.length ∨ (s.mode (pairOf team.seated) = .opened ∧ team.frame ≠ 10)) →
      ∃ t, exec c s = .next t ∧
        t.team x.1 = some (
          if st.ends = false then { scored with ball := balls.length + 1 }
          else if team.bowler < team.roster.length then { scored with bowler := team.bowler + 1, ball := 1 }
          else { scored with frame := team.frame + 1, bowler := 1, ball := 1 }) ∧
        (∀ j, j ≠ x.1 → t.team j = s.team j) ∧ t.delivery l = none ∧ (∀ k, k ≠ l → t.delivery k = s.delivery k) ∧
        t.cdp = (mergePost l post s).cdp ∧ t.owed = s.owed.erase c ++ [.autoPost l post] ∧
        t.lli = { s.lli with console := s.lli.console.put l ⟨true, (s.lli.console.at l).notices⟩ } ∧
        t = { s with
          owed := t.owed
          cdp := t.cdp
          lli := t.lli
          sce := { s.sce with teams := t.sce.teams, deliveries := t.sce.deliveries } })

/-- The step of the progression: a strike ends a frame of 1 to 9, an unfouled ball leaves its standing-after pattern and a fouled one its
standing-before pattern, a second ball ends a frame of 1 to 9; frame 10 gives a third ball after a strike or a spare; every
frame that ends asks for the full rack (R101, R102).

The marks and frame scores of a game: a strike waits for two bonus balls and a spare for one, an open frame counts its balls, and
frame 10 counts its balls once it has ended (R104); a cumulative total is present exactly while every score so far is present,
and is their sum (R105). -/
def Obligations.TheGameFollowsItsBalls : Prop :=
  (∀ (n : Nat) (b1 b2 b3 : Ball) (before : Pins),
      let strike := b1.pins = 10 ∧ b1.foul = false
      (strike → n ≠ 10 → frameStep n [b1] before = ⟨true, 1023⟩) ∧
      (strike → n = 10 → frameStep n [b1] before = ⟨false, 1023⟩) ∧
      (¬ strike → b1.foul = false → frameStep n [b1] before = ⟨false, b1.after⟩) ∧
      (b1.foul = true → frameStep n [b1] before = ⟨false, before⟩) ∧
      (n ≠ 10 → frameStep n [b1, b2] before = ⟨true, 1023⟩) ∧
      (n = 10 → strike → b2.foul = false → b2.after = 0 → frameStep n [b1, b2] before = ⟨false, 1023⟩) ∧
      (n = 10 → strike → b2.foul = false → b2.after ≠ 0 → frameStep n [b1, b2] before = ⟨false, b2.after⟩) ∧
      (n = 10 → strike → b2.foul = true → frameStep n [b1, b2] before = ⟨false, before⟩) ∧
      (n = 10 → ¬ strike → b1.pins + b2.pins = 10 → frameStep n [b1, b2] before = ⟨false, 1023⟩) ∧
      (n = 10 → ¬ strike → b1.pins + b2.pins ≠ 10 → frameStep n [b1, b2] before = ⟨true, 1023⟩) ∧
      frameStep n [b1, b2, b3] before = ⟨true, 1023⟩) ∧
  (∀ (game : List (List Ball)) (i : Fin 10), game.length = 10 →
      let f := (rescored game).at i
      let balls := (game[i.val]?).getD []
      let later := ((game.drop (i.val + 1)).flatten).map (·.pins)
      let scores := (List.finRange 10).map fun j => ((rescored game).at j).score
      f.balls = balls ∧
      (balls = [] → f.mark = none ∧ f.score = none) ∧
      (∀ b1 rest, balls = b1 :: rest → b1.pins = 10 → b1.foul = false → f.mark = some .strike ∧
        (i ≠ 9 → f.score = (match later with | p1 :: p2 :: _ => some (10 + p1 + p2) | _ => none))) ∧
      (∀ b1 rest, balls = b1 :: rest → ¬ (b1.pins = 10 ∧ b1.foul = false) → ∀ b2 more, rest = b2 :: more →
        (b1.pins + b2.pins = 10 → f.mark = some .spare ∧
          (i ≠ 9 → f.score = (match later with | p1 :: _ => some (10 + p1) | [] => none))) ∧
        (b1.pins + b2.pins < 10 → f.mark = some .openFrame ∧ (i ≠ 9 → more = [] → f.score = some (b1.pins + b2.pins)))) ∧
      (∀ b1 rest, balls = b1 :: rest → ¬ (b1.pins = 10 ∧ b1.foul = false) → rest = [] → f.mark = none ∧ f.score = none) ∧
      (i = 9 → f.score = if tenthEnded balls then some (balls.map (·.pins)).sum else none) ∧
      f.cumulative = (if (scores.take (i.val + 1)).all (·.isSome) then some ((scores.take (i.val + 1)).map (·.getD 0)).sum
        else none))

/-! ### Teams and games -/

/-- TEAM_LOAD: its table, and without auto-continue the context as R92 fills it, STANDBY with reason NEW, the display of the home lane
stale; with auto-continue admission is tried as well (R91, R92). The codes of the team state and the standby reason in the response
are the model's reading (log 15). -/
def Obligations.ATeamIsLoaded : Prop :=
  ∀ (tag : BitVec 16) (slot home auto size : Byte) (names : List (List Byte)) (s : State), s.responsesQueued < 8 →
    let c := Instr.teamLoad tag slot home auto size names
    let u := takeHead c s
    let refused (r : Result) := Host.Outcome.next (φ := Fault) (ρ := Refusal) (respond tag 41 r [] u)
    let good := auto.toNat ≤ 1 ∧ 1 ≤ size.toNat ∧ size.toNat ≤ 6 ∧
      ∀ n ∈ names, 1 ≤ n.length ∧ n.length ≤ 12 ∧ ∀ x ∈ n, 32 ≤ x.toNat ∧ x.toNat ≤ 126
    (s.mrp.part = .config → exec c s = refused .badState) ∧
    (s.mrp.part ≠ .config → slotOf slot.toNat = none ∨ laneOf home.toNat = none ∨ ¬ good →
      exec c s = refused .badValue) ∧
    (∀ k, slotOf slot.toNat = some k → ∀ l, laneOf home.toNat = some l → s.mrp.part ≠ .config → good →
      (s.team k ≠ none → exec c s = refused .inUse) ∧
      (s.team k = none → s.enabled l = false → exec c s = refused .badState) ∧
      (s.team k = none → s.enabled l = true → s.seatedTeam l ≠ none → exec c s = refused .inUse) ∧
      (s.team k = none → s.enabled l = true → s.seatedTeam l = none →
        let loaded := { u with
          sce := { s.sce with teams := s.sce.teams.put k (some
            { state := .standby .new, home := l, seated := l,
              roster := names.map fun n => ⟨n, [], Table.fill 10 ⟨[], none, none, none⟩⟩,
              bowler := 1, frame := 1, ball := 1, target := 1023, game := 0, autoContinue := auto = 1,
              reservation := none, inProgress := false, recent := none }) }
          lli := { s.lli with console := s.lli.console.put l ⟨true, (s.lli.console.at l).notices⟩ } }
        (auto = 0 → exec c s = .next (respond tag 41 .ok [2, 1, 1, 0] loaded)) ∧
        (auto = 1 → exec c s = .next
          (respond tag 41 .ok (teamLoadResponse k (tryAdmission k loaded)) (tryAdmission k loaded)))))

/-- Admission tried for a team: the first refusal of R95 that applies leaves it STANDBY with that reason; otherwise the game starts as
R96 says, with the bowler-games reserved on a PER_GAME session, an ARMED session of trigger ON_GAME_START started, and
FULL_RACK posted unless the lane is not READY or holds a valid full rack (R86, R95, R96, R97, R164). The post is merged within
the event and its pass left owed as autoPost (log 4). -/
def Obligations.AdmissionStartsOrRefusesAGame : Prop :=
  ∀ (k : Slot) (s : State), ∀ team, s.team k = some team →
    let x := s.session team.home
    let size := team.roster.length
    let m := s.machine team.seated
    let staled := { s.lli with console := s.lli.console.put team.seated ⟨true, (s.lli.console.at team.seated).notices⟩ }
    let refused (r : StandbyReason) := { s with
      sce := { s.sce with teams := s.sce.teams.put k (some { team with state := .standby r }) }
      lli := staled }
    (x.state = .closed → tryAdmission k s = refused .noSession) ∧
    (x.state ≠ .closed → (s.holds team.home).logfull = true → tryAdmission k s = refused .logFull) ∧
    (∀ tariff, s.sessionTariff team.home = some tariff → x.state ≠ .closed → (s.holds team.home).logfull = false →
      let short := match tariff.timed with
        | none => x.credit.any fun c => decide (c < x.reserved + size)
        | some _ => decide (x.state = .expired)
      let locked := match tariff.timed with
        | none => false
        | some terms => x.credit.any fun c => decide (c ≤ terms.warn)
      (short = true → tryAdmission k s = refused .noCredit) ∧
      (short = false → locked = true → tryAdmission k s = refused .locked) ∧
      (short = false → locked = false → ∃ t, Host.Outcome.next (φ := Fault) (ρ := Refusal) (tryAdmission k s) = .next t ∧
        t.team k = some { team with
          roster := team.roster.map fun b => { b with frames := Table.fill 10 ⟨[], none, none, none⟩ }
          recent := none
          game := if team.game = 255 then 1 else team.game + 1
          frame := 1
          bowler := 1
          ball := 1
          target := 1023
          inProgress := true
          state := .bowling
          reservation := none } ∧
        (∀ j, j ≠ k → t.team j = s.team j) ∧
        (tariff.timed = none → t.session team.home = { x with reserved := x.reserved + size }) ∧
        (∀ terms, tariff.timed = some terms →
          (x.state ≠ .armed ∨ terms.trigger ≠ .onGameStart → t.session team.home = x) ∧
          (x.state = .armed → terms.trigger = .onGameStart → t.session team.home = { x with
            seconds := 0
            state := if x.causeGate = false ∧ x.causeLogFull = false then .running else .suspended })) ∧
        (∀ l, l ≠ team.home → t.session l = s.session l) ∧
        (m.state ≠ .ready ∨ (m.deckValid = true ∧ m.deck = 1023) → t.cdp = s.cdp ∧ t.owed = s.owed) ∧
        (s.seatedSlot team.seated = some k → m.state = .ready → m.deckValid = false ∨ m.deck ≠ 1023 →
          t.cdp = (mergePost team.seated .fullRack s).cdp ∧ t.owed = s.owed ++ [.autoPost team.seated .fullRack]) ∧
        t = { s with
          sce := { s.sce with teams := t.sce.teams }
          blu := { s.blu with sessions := t.blu.sessions }
          cdp := t.cdp
          owed := t.owed
          lli := staled }))

/-- GAME_START: its table, then admission tried, with the outcome, state and game number in the response (R98). START_GAME from a console
tries admission for the STANDBY team seated on its lane and is otherwise discarded (R99); taken in CONFIG or on a disabled lane it
has no effect, as the model tests a frame again when it is taken (log 5). -/
def Obligations.GamesAreStartedByDeskAndConsole : Prop :=
  (∀ (tag : BitVec 16) (slot : Byte) (s : State), s.responsesQueued < 8 →
    let c := Instr.gameStart tag slot
    let u := takeHead c s
    let refused (r : Result) := Host.Outcome.next (φ := Fault) (ρ := Refusal) (respond tag 44 r [] u)
    (s.mrp.part = .config → exec c s = refused .badState) ∧
    (s.mrp.part ≠ .config → slotOf slot.toNat = none → exec c s = refused .badValue) ∧
    (∀ k, slotOf slot.toNat = some k → s.mrp.part ≠ .config →
      (s.team k = none → exec c s = refused .badState) ∧
      (∀ team, s.team k = some team →
        (team.state = .bowling ∨ team.state = .waitingCross → exec c s = refused .badState) ∧
        (team.state ≠ .bowling → team.state ≠ .waitingCross → exec c s = .next
          (respond tag 44 .ok (gameStartResponse k (tryAdmission k u)) (tryAdmission k u)))))) ∧
  (∀ (l : Lane) (s : State),
    let c := Instr.startGame l
    (s.seatedTeam l = none ∨ s.mrp.part = .config ∨ s.enabled l = false → exec c s = .next (s.without c)) ∧
    (∀ x, s.seatedTeam l = some x → s.mrp.part ≠ .config → s.enabled l = true →
      (x.2.state = .bowling ∨ x.2.state = .waitingCross → exec c s = .next (s.without c)) ∧
      (x.2.state ≠ .bowling → x.2.state ≠ .waitingCross →
        exec c s = .next (tryAdmission x.1 (s.without c)))))

/-- TEAM_UNLOAD: its table; the context becomes EMPTY, the seated lane's delivery NONE and its display stale, every correction slot that
names the team is emptied with its notice withdrawn, a discarded game returns its reservation on a PER_GAME session, and a waiting
team whose tenth frame has ended raises GAME_END (R93, R113, R124). On a PAIRED pair the cross check is then made for a team in
WAITING_CROSS on the partner lane, and the response carries the cross and its slot (R118). -/
def Obligations.ATeamIsUnloaded : Prop :=
  ∀ (tag : BitVec 16) (slot : Byte) (s : State), s.responsesQueued < 8 →
    let c := Instr.teamUnload tag slot
    let u := takeHead c s
    let refused (r : Result) := Host.Outcome.next (φ := Fault) (ρ := Refusal) (respond tag 42 r [] u)
    (s.mrp.part = .config → exec c s = refused .badState) ∧
    (s.mrp.part ≠ .config → slotOf slot.toNat = none → exec c s = refused .badValue) ∧
    (∀ k, slotOf slot.toNat = some k → s.mrp.part ≠ .config →
      (s.team k = none → exec c s = refused .badState) ∧
      (∀ team, s.team k = some team → ∃ t : State,
          (let lost : Byte := if team.inProgress then 1 else 0
           let waiting := s.mode (pairOf team.seated) = .paired ∧
             ∃ y, t.seatedTeam (partner team.seated) = some y ∧ y.2.state = .waitingCross
           (¬ waiting → exec c s = .next (respond tag 42 .ok [slot, lost, 0, 0] t)) ∧
           (∀ y, t.seatedTeam (partner team.seated) = some y → waiting →
             exec c s = .next (respond tag 42 .ok [slot, lost, 1, 1, BitVec.ofNat 8 (numberOf y.1)] (crossCheck y.1 t)))) ∧
          t.team k = none ∧ (∀ j, j ≠ k → t.team j = s.team j) ∧
          (∀ l, t.delivery l = if l = team.seated then none else s.delivery l) ∧
          (∀ l, t.correction l = if (s.correction l).map (·.team) = some k then none else s.correction l) ∧
          (∀ l, t.session l = if l = team.home ∧ team.inProgress = true ∧ s.perGame l = true
            then { s.session l with reserved := (s.session l).reserved - team.roster.length } else s.session l) ∧
          (s.dli.notices.Nodup → ∀ n, n ∈ t.dli.notices ↔
            (n = .ofLane .gameEnd team.seated ∧ team.state = .waitingCross ∧ team.inProgress = false) ∨
            (n ∈ s.dli.notices ∧ ∀ l, (s.correction l).map (·.team) = some k → n ≠ .ofLane .correction l)) ∧
          t.lli = { s.lli with
            console := s.lli.console.put team.seated ⟨true, (s.lli.console.at team.seated).notices⟩ } ∧
          t = { u with
            sce := { s.sce with teams := t.sce.teams, deliveries := t.sce.deliveries, corrections := t.sce.corrections }
            blu := { s.blu with sessions := t.blu.sessions }
            dli := { u.dli with notices := t.dli.notices }
            lli := t.lli }))

/-- The end of a game, first part: each bowler's game total is appended, the oldest of ten dropped, the game is no longer in progress, and a
PER_GAME session of the home lane is charged: a GAME record at the price of the band in force for every bowler, the reservation and
the credit reduced, games charged counted; a PER_TIME session is left as it stands (R106, R165).

The end of a game, second part: the team is STANDBY with reason GAME_OVER, admission is tried when auto-continue is yes, GAME_END is
raised for the seated lane and its display stale (R106, R117). The current bowler, frame and ball stay (log 18).

A charge record is made with the session's id, lane and clock stamp, its amount joining the accrued amount; it enters the log with the
next sequence number, LOG_HIGH being raised at the level; with the log full it becomes the session's owed record with LOGFULL claimed,
a PER_TIME session suspended and LOG_HIGH raised, or is combined into the owed record (R158, R171, R173, R174, R179). A sum that does
not fit 48 bits is a free value (log 11). -/
def Obligations.GamesEndAndAreCharged : Prop :=
  (∀ (k : Slot) (s : State), ∀ team, s.team k = some team →
      let size := team.roster.length
      let recorded : State := { s with sce := { s.sce with teams := s.sce.teams.put k (some { team with
        inProgress := false
        roster := team.roster.map fun b => { b with
          totals := (if b.totals.length < 10 then b.totals else b.totals.drop 1) ++
            [⟨team.game, ((b.frames.at 9).cumulative).getD 0⟩] } }) } }
      (∀ terms, s.terms team.home = some terms → recordGame k s = recorded) ∧
      (∀ tariff, s.sessionTariff team.home = some tariff → tariff.timed = none →
        let price := ((tariff.bands[tariff.bandAt s.mrp.clock]?).map (·.price)).getD 0
        let made := makeCharge team.home
          (.game (numberOf k) team.game size price (BitVec.ofNat 48 (size * price))) recorded
        let x := made.session team.home
        recordGame k s = { made with blu := { made.blu with sessions := made.blu.sessions.put team.home { x with
          reserved := x.reserved - size
          credit := x.credit.map (· - size)
          games := min (x.games + 1) 65535 } } }) ∧
      (let stood : State := { s with sce := { s.sce with
         teams := s.sce.teams.put k (some { team with state := .standby .gameOver }) } }
       let t := if team.autoContinue then tryAdmission k stood else stood
       finishGame k s = { t with
         lli := { t.lli with console := t.lli.console.put team.seated ⟨true, (t.lli.console.at team.seated).notices⟩ }
         dli := { t.dli with notices := noticesRaised (.ofLane .gameEnd team.seated) t.dli.notices } })) ∧
  (∀ (l : Lane) (body : ChargeBody) (s : State),
      let x := s.session l
      let m := s.machine l
      let charge : Charge := ⟨x.id, l, s.mrp.clock, body⟩
      let amount : BitVec 48 := match body with
        | .game _ _ _ _ a => a
        | .time _ _ _ a => a
        | .close .. => 0
      let timed := (s.terms l).isSome
      let fits := x.accrued.toNat + amount.toNat < 2 ^ 48
      ∃ accrued draws, (fits → accrued = x.accrued + amount ∧ draws = s.draws) ∧
        (s.blu.log.length < 256 → makeCharge l body s = { s with
          draws := draws
          blu := { s.blu with
            sessions := s.blu.sessions.put l { x with accrued := accrued }
            log := s.blu.log ++ [⟨s.blu.nextSeq, charge⟩]
            nextSeq := s.blu.nextSeq + 1 }
          dli := { s.dli with notices :=
            if s.blu.log.length < s.mrp.params.logHigh ∧ s.mrp.params.logHigh ≤ s.blu.log.length + 1
            then noticesRaised (.ofPart .logHigh) s.dli.notices else s.dli.notices } }) ∧
        (256 ≤ s.blu.log.length → x.owed = none → makeCharge l body s = { s with
          draws := draws
          owed := s.owed ++ if (s.holds l).logfull then [] else [.holdSetChange l, .gateEvaluation l]
          psv := s.psv.put l { m with holds := { s.holds l with logfull := true } }
          blu := { s.blu with sessions := s.blu.sessions.put l { x with
            accrued := accrued
            owed := some charge
            causeLogFull := x.causeLogFull || timed
            state := if timed = true ∧ x.state = .running then .suspended else x.state } }
          dli := { s.dli with notices := noticesRaised (.ofPart .logHigh) s.dli.notices } }) ∧
        (∀ o, 256 ≤ s.blu.log.length → x.owed = some o → ∃ sum draws',
          (o.body.amount.toNat + body.amount.toNat < 2 ^ 48 → sum = o.body.amount + body.amount ∧ draws' = draws) ∧
          (let combined (b : ChargeBody) : State := { s with
             draws := draws'
             blu := { s.blu with sessions := s.blu.sessions.put l { x with
               accrued := accrued
               owed := some { o with stamp := s.mrp.clock, body := b } } } }
           (∀ slot game b1 p1 a1 slot' game' b2 p2 a2, o.body = .game slot game b1 p1 a1 → body = .game slot' game' b2 p2 a2 →
             makeCharge l body s = combined (.game 0 0 (b1 + b2) p2 sum)) ∧
           (∀ band m1 p1 a1 band' m2 p2 a2, o.body = .time band m1 p1 a1 → body = .time band' m2 p2 a2 →
             makeCharge l body s = combined (.time band' (m1 + m2) p2 sum)))))

/-- The cross check of a team in WAITING_CROSS: it waits while its partner lane seats a team BOWLING; otherwise it moves to the partner
lane, and a team seated there, STANDBY or itself waiting, moves to its lane, each with its reservation cleared; then the teams of
the pair that wait leave WAITING_CROSS, the odd lane's first, and both displays are stale; nothing else changes (R114, R115, R117).

A team leaves WAITING_CROSS: with its game in progress it takes its next frame BOWLING with the full rack as target, and FULL_RACK is
posted when its lane is READY without a valid full rack (R112, R116); after its tenth frame it takes the second part of the game end
(R117). The post is merged within the event and its pass left owed as autoPost (log 4). -/
def Obligations.WaitingTeamsCross : Prop :=
  (∀ (k : Slot) (s : State), ∀ team, s.team k = some team →
      let there := partner team.seated
      let p := pairOf team.seated
      let leave (l : Lane) (w : State) : State := match w.seatedTeam l with
        | some (j, x) => if x.state = .waitingCross then leaveWaiting j w else w
        | none => w
      let stale (l : Lane) (w : State) : State := { w with lli := { w.lli with
        console := w.lli.console.put l ⟨true, (w.lli.console.at l).notices⟩ } }
      let crossed (teams : Table 32 (Option Team)) : State :=
        stale there (stale team.seated (leave (evenLane p) (leave (oddLane p) { s with sce := { s.sce with teams := teams } })))
      let moved := s.sce.teams.put k (some { team with seated := there, reservation := none })
      (∀ x, s.seatedTeam there = some x → x.2.state = .bowling → crossCheck k s = s) ∧
      (s.seatedTeam there = none → crossCheck k s = crossed moved) ∧
      (∀ x, s.seatedTeam there = some x → x.2.state ≠ .bowling →
        crossCheck k s = crossed (moved.put x.1 (some { x.2 with seated := team.seated, reservation := none })))) ∧
  (∀ (k : Slot) (s : State), ∀ team, s.team k = some team →
      let l := team.seated
      let m := s.machine l
      let next : State := { s with
        sce := { s.sce with teams := s.sce.teams.put k (some { team with
          frame := team.frame + 1, bowler := 1, ball := 1, target := 1023, state := .bowling }) }
        lli := { s.lli with console := s.lli.console.put l ⟨true, (s.lli.console.at l).notices⟩ } }
      (team.inProgress = true → m.state ≠ .ready ∨ (m.deckValid = true ∧ m.deck = 1023) → leaveWaiting k s = next) ∧
      (team.inProgress = true → s.seatedSlot l = some k → m.state = .ready → m.deckValid = false ∨ m.deck ≠ 1023 →
        leaveWaiting k s = { mergePost l .fullRack next with owed := s.owed ++ [.autoPost l .fullRack] }) ∧
      (team.inProgress = false → leaveWaiting k s = finishGame k s)) ∧
  (∀ (k : Slot) (s : State), ∀ team, s.team k = some team → team.state = .waitingCross → team.inProgress = true →
      let there := partner team.seated
      let next (t : Team) (l : Lane) : Team := { t with
        seated := l
        reservation := none
        frame := t.frame + 1
        bowler := 1
        ball := 1
        target := 1023
        state := .bowling }
      let framed (t : State) := (∀ l, t.lli.console.at l =
            if l = team.seated ∨ l = there then ⟨true, (s.lli.console.at l).notices⟩ else s.lli.console.at l) ∧
          t = { s with
            sce := { s.sce with teams := t.sce.teams }
            lli := { s.lli with console := t.lli.console }
            cdp := t.cdp
            owed := t.owed }
      ((∀ j x, s.team j = some x → pairOf x.seated = pairOf team.seated → j = k) →
        (crossCheck k s).team k = some (next team there) ∧ (∀ j, j ≠ k → (crossCheck k s).team j = s.team j) ∧
        framed (crossCheck k s)) ∧
      (∀ x, s.seatedTeam there = some x → x.2.state ≠ .bowling →
        (∀ j y, s.team j = some y → pairOf y.seated = pairOf team.seated → j = k ∨ j = x.1) →
        (∀ j, j ≠ k → j ≠ x.1 → (crossCheck k s).team j = s.team j) ∧
        (x.2.state ≠ .waitingCross →
          (crossCheck k s).team x.1 = some { x.2 with seated := team.seated, reservation := none }) ∧
        (x.2.state ≠ .waitingCross ∨ x.2.inProgress = true →
          (crossCheck k s).team k = some (next team there) ∧ framed (crossCheck k s)) ∧
        (x.2.state = .waitingCross → x.2.inProgress = true →
          (crossCheck k s).team x.1 = some (next x.2 team.seated))))

/-! ### Paired play -/

/-- PAIR_MODE: its table; the mode becomes the requested one, and unless it releases a waiting team nothing else changes (R111). Setting a
PAIRED pair OPEN releases its waiting teams on the lanes they occupy, the odd lane's first (R112). The response carries the mode
before and after and the slots of the teams it released (R111). -/
def Obligations.ThePairModeIsSet : Prop :=
  ∀ (tag : BitVec 16) (pair mode : Byte) (s : State), s.responsesQueued < 8 →
    let c := Instr.pairMode tag pair mode
    let u := takeHead c s
    let refused (r : Result) := Host.Outcome.next (φ := Fault) (ρ := Refusal) (respond tag 45 r [] u)
    (s.mrp.part = .config → exec c s = refused .badState) ∧
    (s.mrp.part ≠ .config → pairNumbered pair.toNat = none ∨ (mode ≠ 1 ∧ mode ≠ 2) → exec c s = refused .badValue) ∧
    (∀ p, pairNumbered pair.toNat = some p → s.mrp.part ≠ .config →
      let fit (l : Lane) := (s.session l).state = .running ∧ s.terms l = none ∧
        (∀ x, s.seatedTeam l = some x → x.2.state ≠ .bowling ∧ x.2.state ≠ .waitingCross)
      let calm (l : Lane) := ∀ x, s.seatedTeam l = some x → x.2.state ≠ .waitingCross
      (mode = 2 → ¬ (fit (oddLane p) ∧ fit (evenLane p)) → exec c s = refused .badState) ∧
      (mode = 2 → fit (oddLane p) → fit (evenLane p) →
        exec c s = .next (respond tag 45 .ok [BitVec.ofNat 8 (s.mode p).code, 2, 0]
          { u with sce := { s.sce with modes := s.sce.modes.put p .paired } })) ∧
      (mode = 1 → s.mode p = .opened ∨ (calm (oddLane p) ∧ calm (evenLane p)) →
        exec c s = .next (respond tag 45 .ok [BitVec.ofNat 8 (s.mode p).code, 1, 0]
          { u with sce := { s.sce with modes := s.sce.modes.put p .opened } })) ∧
      (mode = 1 → s.mode p = .paired →
        let slots (l : Lane) : List Byte := match s.seatedTeam l with
          | some (k, x) => if x.state = .waitingCross then [BitVec.ofNat 8 (numberOf k)] else []
          | none => []
        let leave (l : Lane) (w : State) : State := match w.seatedTeam l with
          | some (k, x) => if x.state = .waitingCross then leaveWaiting k w else w
          | none => w
        let released := slots (oddLane p) ++ slots (evenLane p)
        exec c s = .next (respond tag 45 .ok ([2, 1, BitVec.ofNat 8 released.length] ++ released)
          (leave (evenLane p) (leave (oddLane p)
            { u with sce := { s.sce with modes := s.sce.modes.put p .opened } })))) ∧
      (∀ x, s.seatedTeam (oddLane p) = some x → mode = 1 → s.mode p = .paired → x.2.state = .waitingCross →
        x.2.inProgress = true → calm (evenLane p) → ∃ t, exec c s = .next t ∧
          Answered c tag 45 .ok [2, 1, 1, BitVec.ofNat 8 (numberOf x.1)] s t ∧ t.mode p = .opened ∧
          t.team x.1 = some { x.2 with frame := x.2.frame + 1, bowler := 1, ball := 1, target := 1023, state := .bowling } ∧
          (∀ j, j ≠ x.1 → t.team j = s.team j) ∧ (∀ q, q ≠ p → t.mode q = s.mode q)))

/-! ### Corrections and amendments -/

/-- A console's CORRECTION_REQUEST: discarded with no team seated or a bowler above its roster, BUSY with the slot held, and otherwise
the slot takes it and CORRECTION is raised (R121). CORRECTION_CLOSE: its table, then the slot emptied and its notice
withdrawn (R123). -/
def Obligations.CorrectionsAreTakenAndClosed : Prop :=
  (∀ (l : Lane) (bowler frame reason : Nat) (s : State),
    let c := Instr.correctionRequest l bowler frame reason
    (s.mrp.part = .config ∨ s.enabled l = false ∨ s.seatedTeam l = none → exec c s = .next (s.without c)) ∧
    (∀ x, s.seatedTeam l = some x → s.mrp.part ≠ .config → s.enabled l = true →
      (x.2.roster.length < bowler → exec c s = .next (s.without c)) ∧
      (let codes := (s.lli.console.at l).notices
       let busy := if ConsoleCode.busy ∈ codes then codes else codes ++ [.busy]
       bowler ≤ x.2.roster.length → s.correction l ≠ none → exec c s = .next { s with
        owed := s.owed.erase c
        lli := { s.lli with console := s.lli.console.put l ⟨(s.lli.console.at l).stale, busy⟩ } }) ∧
      (bowler ≤ x.2.roster.length → s.correction l = none → exec c s = .next { s with
        owed := s.owed.erase c
        sce := { s.sce with corrections := s.sce.corrections.put l (some ⟨x.1, bowler, frame, reason⟩) }
        dli := { s.dli with notices := noticesRaised (.ofLane .correction l) s.dli.notices } }))) ∧
  (∀ (tag : BitVec 16) (lane : Byte) (s : State), s.responsesQueued < 8 →
    let c := Instr.correctionClose tag lane
    let u := takeHead c s
    let refused (r : Result) := Host.Outcome.next (φ := Fault) (ρ := Refusal) (respond tag 48 r [] u)
    (s.mrp.part = .config → exec c s = refused .badState) ∧
    (s.mrp.part ≠ .config → laneOf lane.toNat = none → exec c s = refused .badValue) ∧
    (∀ l, laneOf lane.toNat = some l → s.mrp.part ≠ .config →
      (s.correction l = none → exec c s = refused .badState) ∧
      (∀ x, s.correction l = some x → exec c s = .next (respond tag 48 .ok
        [BitVec.ofNat 8 (numberOf x.team), BitVec.ofNat 8 x.bowler, BitVec.ofNat 8 x.frame, BitVec.ofNat 8 x.reason]
        { u with
          sce := { s.sce with corrections := s.sce.corrections.put l none }
          dli := { u.dli with notices := s.dli.notices.erase (.ofLane .correction l) } }))))

/-- AMEND_RESERVE: its table over the amendable game and the complete frames of R125, then the reservation replaced and nothing else, the
response carrying the game number, whether it is the current game, and the frame (R125, R126). That the response says 1 for the
current game and 0 for the last completed one is the model's reading (log 16). -/
def Obligations.ACompleteFrameIsReserved : Prop :=
  ∀ (tag : BitVec 16) (slot bowler frame : Byte) (s : State), s.responsesQueued < 8 →
    let c := Instr.amendReserve tag slot bowler frame
    let u := takeHead c s
    let refused (r : Result) := Host.Outcome.next (φ := Fault) (ρ := Refusal) (respond tag 49 r [] u)
    let good := 1 ≤ bowler.toNat ∧ bowler.toNat ≤ 6 ∧ 1 ≤ frame.toNat ∧ frame.toNat ≤ 10
    (s.mrp.part = .config → exec c s = refused .badState) ∧
    (s.mrp.part ≠ .config → slotOf slot.toNat = none ∨ ¬ good → exec c s = refused .badValue) ∧
    (∀ k, slotOf slot.toNat = some k → s.mrp.part ≠ .config → good →
      (s.team k = none → exec c s = refused .badState) ∧
      (∀ team, s.team k = some team →
        (team.roster.length < bowler.toNat → exec c s = refused .badValue) ∧
        (∀ b, team.roster[bowler.toNat - 1]? = some b →
          let none' := team.state = .standby .new ∨ team.state = .standby .noSession ∨ team.state = .standby .reset
          let current := team.state = .bowling ∨ (team.state = .waitingCross ∧ team.inProgress = true)
          let f := b.frame frame.toNat
          let complete : Bool := match f.balls with
            | [b1] => decide (frame ≠ 10 ∧ b1.pins = 10 ∧ b1.foul = false)
            | [b1, b2] => decide (frame = 10 → ¬ (b1.pins = 10 ∧ b1.foul = false) ∧ b1.pins + b2.pins ≠ 10)
            | [_, _, _] => decide (frame = 10)
            | _ => false
          (none' ∨ complete = false → exec c s = refused .badState) ∧
          (¬ none' → complete = true → exec c s = .next (respond tag 49 .ok
            ([BitVec.ofNat 8 team.game, if current then 1 else 0] ++ f.bytes)
            { u with sce := { s.sce with
              teams := s.sce.teams.put k (some { team with reservation := some ⟨bowler.toNat, frame.toNat⟩ }) } })))))

/-- AMEND_COMMIT: its table with the limits of R129, then the balls' counts, foul and amended flags replaced, the bowler's frames computed
anew, the newest game total of an ended game replaced, the reservation cleared, every correction slot that names the frame
emptied and the display stale (R128, R129, R130). -/
def Obligations.AReservedFrameIsAmended : Prop :=
  ∀ (tag : BitVec 16) (slot bowler frame count : Byte) (balls : List WireBall) (s : State), s.responsesQueued < 8 →
    let c := Instr.amendCommit tag slot bowler frame count balls
    let u := takeHead c s
    let refused (r : Result) := Host.Outcome.next (φ := Fault) (ρ := Refusal) (respond tag 50 r [] u)
    let named := 1 ≤ bowler.toNat ∧ bowler.toNat ≤ 6 ∧ 1 ≤ frame.toNat ∧ frame.toNat ≤ 10
    let counted := 1 ≤ count.toNat ∧ count.toNat ≤ 3 ∧ ∀ w ∈ balls, w.foul.toNat ≤ 1
    (s.mrp.part = .config → exec c s = refused .badState) ∧
    (s.mrp.part ≠ .config → slotOf slot.toNat = none ∨ ¬ named ∨ ¬ counted → exec c s = refused .badValue) ∧
    (∀ k, slotOf slot.toNat = some k → s.mrp.part ≠ .config → named → counted →
      ((s.team k).bind (·.reservation) ≠ some ⟨bowler.toNat, frame.toNat⟩ → exec c s = refused .noReservation) ∧
      (∀ team, s.team k = some team → ∀ b, team.roster[bowler.toNat - 1]? = some b →
        team.reservation = some ⟨bowler.toNat, frame.toNat⟩ →
        let before := (b.frame frame.toNat).balls
        let struck (w : WireBall) := w.pins = 10 ∧ w.foul = 0
        let shaped : Bool := match before, balls with
          | [b1], [w1] => decide (frame ≠ 10 ∧ (struck w1 ↔ b1.pins = 10 ∧ b1.foul = false))
          | b1 :: b2 :: more, w1 :: w2 :: rest => decide (
            (struck w1 ↔ b1.pins = 10 ∧ b1.foul = false) ∧
            (frame ≠ 10 → more = [] ∧ rest = [] ∧ w1.pins.toNat + w2.pins.toNat ≤ 10) ∧
            (frame = 10 →
              (struck w1 ∨ w1.pins.toNat + w2.pins.toNat = 10 ↔
                (b1.pins = 10 ∧ b1.foul = false) ∨ b1.pins + b2.pins = 10) ∧
              (struck w1 ∨ w1.pins.toNat + w2.pins.toNat ≤ 10) ∧
              ∀ w3 ∈ rest, struck w1 → w2.pins ≠ 10 → w2.pins.toNat + w3.pins.toNat ≤ 10))
          | _, _ => false
        let right := count.toNat = before.length ∧ balls.length = count.toNat ∧
          (∀ w ∈ balls, w.pins.toNat ≤ 10 ∧ (w.foul = 1 → w.pins = 0)) ∧ shaped = true
        let rescoredBowler := b.withBalls frame.toNat (List.zipWith
          (fun x (w : WireBall) => { x with pins := w.pins.toNat, foul := w.foul == 1, amended := true }) before balls)
        let total := ((rescoredBowler.frames.at 9).cumulative).getD 0
        let settled := if team.inProgress then rescoredBowler
          else { rescoredBowler with totals := amendTotals team.game total rescoredBowler.totals }
        let amended : Team := { team with
          roster := team.roster.set (bowler.toNat - 1) settled
          reservation := none }
        (balls.length = count.toNat → ¬ right → exec c s = refused .badValue) ∧
        (right → ∃ t, exec c s = .next t ∧
          Answered c tag 50 .ok ([BitVec.ofNat 8 team.game] ++ (rescoredBowler.frame frame.toNat).bytes ++
            optBytes u16 (rescoredBowler.frames.at 9).cumulative) s t ∧
          t.team k = some amended ∧ (∀ j, j ≠ k → t.team j = s.team j) ∧
          (let names (x : Correction) := x.team = k ∧ x.bowler = bowler.toNat ∧ x.frame = frame.toNat
           (∀ l, t.correction l = if (s.correction l).any (fun x => decide (names x)) then none else s.correction l) ∧
           (s.dli.notices.Nodup → t.dli.notices = s.dli.notices.filter fun n => !decide (∃ l,
             (s.correction l).any (fun x => decide (names x)) = true ∧ n = .ofLane .correction l))) ∧
          t = { u with
            sce := { s.sce with teams := t.sce.teams, corrections := t.sce.corrections }
            dli := { t.dli with linkErrors := s.dli.linkErrors }
            lli := { s.lli with
              console := s.lli.console.put team.seated ⟨true, (s.lli.console.at team.seated).notices⟩ } })))

/-! ### Ball return -/

/-- The balls of a pair: a BALL_PASS is queued with the clock's value (or OVERFLOW latched at eight entries); a BALL_ARRIVED removes the
oldest entry, or counts as unmatched, and adds to the rack, or latches OVERRUN; a BALL_TAKEN leaves the rack, or counts as
unmatched. The lift, the overdue timer and the causes follow (R133, R134, R136, R139, R140, R142).

RACK_HIGH is raised for the pair and on both lanes' consoles on a fall of the free places to the level, withdrawn for the pair on a rise
above it, and left as it stands otherwise; every other notice and console stays but for the raises named (R138, R142, R147). -/
def Obligations.BallsPassArriveAndAreTaken : Prop :=
  ∀ (l : Lane) (s : State),
    let p := pairOf l
    let r := s.pair p
    let pass := Instr.ballPassReturn l
    let arrive := Instr.ballArrived p
    let taken := Instr.ballTaken p
    let high (raised : List Notice) (t : State) := RackHighApplied p raised s t
    let framed (t : State) := (∀ q, q ≠ p → t.pair q = s.pair q) ∧
      t = { s with owed := t.owed, brm := t.brm, psv := t.psv, lli := t.lli, dli := { s.dli with notices := t.dli.notices } }
    let lifted (rack : Nat) := decide (s.mrp.part = .run) && s.pairEnabled p && decide (rack < r.capacity)
    let timed (lift : Bool) (transit : List Transit) (overdue fresh : Bool) : Option Nat :=
      if lift = true ∧ transit ≠ [] ∧ overdue = false then
        some (if fresh then s.mrp.params.returnTimeout else r.timer.getD s.mrp.params.returnTimeout)
      else none
    (s.mrp.part ≠ .config → s.enabled l = true →
      (r.transit.length < 8 → ∃ t, exec pass s = .next t ∧ framed t ∧ high s.dli.notices t ∧ t.psv = s.psv ∧
        t.owed = s.owed.erase pass ∧ t.lli.liftMarks = s.lli.liftMarks ∧
        t.pair p = { r with
          transit := r.transit ++ [⟨l, s.mrp.clock⟩]
          timer := timed r.lift (r.transit ++ [⟨l, s.mrp.clock⟩]) r.oldestOverdue r.transit.isEmpty }) ∧
      (8 ≤ r.transit.length → ∃ t, exec pass s = .next t ∧ framed t ∧ t.lli = s.lli ∧
        t.pair p = { r with causes := { r.causes with overflow := some false } } ∧
        t.dli.notices = noticesRaised (.ofPair .pairFault p) s.dli.notices ∧
        (r.causes = ⟨none, none, none, none⟩ → (t.holds (oddLane p)).pair = true ∧ (t.holds (evenLane p)).pair = true) ∧
        (r.causes ≠ ⟨none, none, none, none⟩ → t.psv = s.psv))) ∧
    (s.mrp.part ≠ .config → s.pairEnabled p = true →
      (∃ t, exec arrive s = .next t ∧ framed t ∧
        (let unmatched := if r.transit = [] then noticesRaised (.ofPair .unmatched p) s.dli.notices else s.dli.notices
         high (if r.rack < r.capacity then unmatched else noticesRaised (.ofPair .pairFault p) unmatched) t) ∧
        (let rest := r.transit.tail
         let late := if r.transit ≠ [] ∧ r.oldestOverdue = true ∧ r.causes.overdue ≠ none then some true else r.causes.overdue
         let flow := if r.transit ≠ [] ∧ rest.length < 8 ∧ r.causes.overflow ≠ none then some true else r.causes.overflow
         let rack := if r.rack < r.capacity then r.rack + 1 else r.rack
         t.pair p = { r with
          transit := rest
          rack := rack
          oldestOverdue := if r.transit ≠ [] then false else r.oldestOverdue
          lift := lifted rack
          timer := timed (lifted rack) rest (if r.transit ≠ [] then false else r.oldestOverdue) (!r.transit.isEmpty)
          causes := ⟨late, r.causes.jam, flow, if r.rack < r.capacity then r.causes.overrun else some false⟩
          unmatchedArrivals := if r.transit = [] then min (r.unmatchedArrivals + 1) 255 else r.unmatchedArrivals } ∧
         (r.transit = [] → .ofPair .unmatched p ∈ t.dli.notices) ∧
         t.lli.liftMarks = (if lifted rack = r.lift then s.lli.liftMarks else s.lli.liftMarks.put p true) ∧
         (r.rack < r.capacity → t.psv = s.psv) ∧
         (r.capacity ≤ r.rack → .ofPair .pairFault p ∈ t.dli.notices ∧ (r.causes = ⟨none, none, none, none⟩ →
           (t.holds (oddLane p)).pair = true ∧ (t.holds (evenLane p)).pair = true)))) ∧
      (0 < r.rack → ∃ t, exec taken s = .next t ∧ framed t ∧ high s.dli.notices t ∧ t.psv = s.psv ∧ t.owed = s.owed.erase taken ∧
        t.pair p = { r with
          rack := r.rack - 1
          lift := lifted (r.rack - 1)
          timer := if r.lift = false ∧ lifted (r.rack - 1) = true then timed true r.transit r.oldestOverdue false else r.timer
          causes := { r.causes with overrun :=
            if r.rack - 1 < r.capacity ∧ r.causes.overrun ≠ none then some true else r.causes.overrun } } ∧
        t.lli.liftMarks = (if lifted (r.rack - 1) = r.lift then s.lli.liftMarks else s.lli.liftMarks.put p true)) ∧
      (r.rack = 0 → exec taken s = .next { s with
        owed := s.owed.erase taken
        brm := s.brm.put p { r with unmatchedTakes := min (r.unmatchedTakes + 1) 255 }
        dli := { s.dli with notices := noticesRaised (.ofPair .unmatched p) s.dli.notices } })) ∧
    (s.mrp.part = .config ∨ s.enabled l = false → exec pass s = .next (s.without pass)) ∧
    (s.mrp.part = .config ∨ s.pairEnabled p = false →
      exec arrive s = .next (s.without arrive) ∧ exec taken s = .next (s.without taken))

/-- The causes of a pair: LIFT_JAM latches JAM and the expiry of a running overdue timer marks the oldest entry and latches OVERDUE, each
raising PAIR_FAULT and claiming PAIR on both lanes when the set was empty; LIFT_CLEAR ends JAM's condition (R141, R142, R143,
R144). PAIR_ACK: its table, then every named cause whose condition has ended leaves, and with none left PAIR is released and
PAIR_FAULT withdrawn (R146); the causes are sent in the model's order (log 28). -/
def Obligations.PairCausesAreLatchedAndAcknowledged : Prop :=
  ∀ (p : Pair) (s : State),
    let r := s.pair p
    let jam := Instr.liftJam p
    let clear := Instr.liftClear p
    let expiry := Instr.overdueTimerExpiry p
    let latched (c : Instr) (r' : PairRecord) (t : State) :=
      t.brm = s.brm.put p r' ∧ t.dli = { s.dli with notices := noticesRaised (.ofPair .pairFault p) s.dli.notices } ∧
      (r.causes = ⟨none, none, none, none⟩ → s.mrp.part ≠ .config →
        (∀ l, (t.machine l) = if pairOf l = p then { s.machine l with holds := { s.holds l with pair := true } }
          else s.machine l) ∧
        (∀ l, pairOf l = p → (s.holds l).pair = false → .holdSetChange l ∈ t.owed ∧ .gateEvaluation l ∈ t.owed)) ∧
      (r.causes ≠ ⟨none, none, none, none⟩ → t.psv = s.psv ∧ t.owed = s.owed.erase c) ∧
      t = { s with owed := t.owed, psv := t.psv, brm := t.brm, dli := t.dli }
    (s.mrp.part ≠ .config → s.pairEnabled p = true →
      (∃ t, exec jam s = .next t ∧ latched jam { r with causes := { r.causes with jam := some false } } t) ∧
      (r.causes.jam = none → exec clear s = .next (s.without clear)) ∧
      (r.causes.jam ≠ none → exec clear s = .next { s with
        owed := s.owed.erase clear
        brm := s.brm.put p { r with causes := { r.causes with jam := some true } } })) ∧
    (s.mrp.part = .config ∨ s.pairEnabled p = false →
      exec jam s = .next (s.without jam) ∧ exec clear s = .next (s.without clear)) ∧
    (r.timer ≠ none → ∃ t, exec expiry s = .next t ∧ latched expiry
      { r with oldestOverdue := true, timer := none, causes := { r.causes with overdue := some false } } t) ∧
    (r.timer = none → exec expiry s = .next (s.without expiry)) ∧
    (∀ (tag : BitVec 16) (pair causes : Byte), s.responsesQueued < 8 → pairNumbered pair.toNat = none →
      exec (.pairAck tag pair causes) s = .next (respond tag 58
        (if s.mrp.part = .config then .badState else .badValue) [] (takeHead (.pairAck tag pair causes) s))) ∧
    (∀ (tag : BitVec 16) (pair causes : Byte), s.responsesQueued < 8 → pairNumbered pair.toNat = some p →
      let c := Instr.pairAck tag pair causes
      let u := takeHead c s
      let refused (x : Result) := Host.Outcome.next (φ := Fault) (ρ := Refusal) (respond tag 58 x [] u)
      let acked (bit : Nat) (x : Option Bool) := if causes.getLsbD bit = true ∧ x = some true then none else x
      let left : FaultCauses := ⟨acked 0 r.causes.overdue, acked 1 r.causes.jam, acked 2 r.causes.overflow,
        acked 3 r.causes.overrun⟩
      (s.mrp.part = .config → exec c s = refused .badState) ∧
      (s.mrp.part ≠ .config → causes = 0 ∨ 15 < causes.toNat → exec c s = refused .badValue) ∧
      (s.mrp.part ≠ .config → causes ≠ 0 → causes.toNat ≤ 15 → ∃ t, exec c s = .next t ∧
        Answered c tag 58 .ok ([r.causes.removedByte left] ++ left.bytes) s t ∧
        t.brm = s.brm.put p { r with causes := left } ∧
        (left = ⟨none, none, none, none⟩ →
          t.dli.notices = s.dli.notices.erase (.ofPair .pairFault p) ∧
          ∀ l, t.machine l = if pairOf l = p then { s.machine l with holds := { s.holds l with pair := false } }
            else s.machine l) ∧
        (left ≠ ⟨none, none, none, none⟩ → t.dli.notices = s.dli.notices ∧ t.psv = s.psv ∧ t.owed = s.owed) ∧
        t = { u with owed := t.owed, psv := t.psv, brm := t.brm, dli := { t.dli with linkErrors := s.dli.linkErrors } }))

/-- TRANSIT_DISCARD: its table, the oldest entry removed as an arrival removes it, the rack left as it stands (R135). RACK_SET: its table,
the rack count replaced, OVERRUN's condition ended below the capacity, the lift and the overdue timer evaluated (R137); the causes
are sent in the model's order (log 28).

Either raises RACK_HIGH for the pair and on both lanes' consoles when it takes the free places to the level, withdraws it for the pair
when it takes them above, and leaves the notices and consoles as they stand otherwise (R135, R137, R138). -/
def Obligations.TheDeskDiscardsBallsAndSetsRacks : Prop :=
  ∀ (tag : BitVec 16) (pair count : Byte) (s : State), s.responsesQueued < 8 →
    let c := Instr.transitDiscard tag pair
    let d := Instr.rackSet tag pair count
    let u := takeHead c s
    let v := takeHead d s
    let refused (r : Result) := Host.Outcome.next (φ := Fault) (ρ := Refusal) (respond tag 56 r [] u)
    let refused' (r : Result) := Host.Outcome.next (φ := Fault) (ρ := Refusal) (respond tag 57 r [] v)
    (s.mrp.part = .config → exec c s = refused .badState ∧ exec d s = refused' .badState) ∧
    (s.mrp.part ≠ .config → pairNumbered pair.toNat = none → exec c s = refused .badValue ∧ exec d s = refused' .badValue) ∧
    (∀ p, pairNumbered pair.toNat = some p → s.mrp.part ≠ .config →
      let r := s.pair p
      let lifted (rack : Nat) := decide (s.mrp.part = .run) && s.pairEnabled p && decide (rack < r.capacity)
      let framed (t : State) := (∀ q, q ≠ p → t.pair q = s.pair q) ∧ t.psv = s.psv ∧ t.owed = s.owed ∧
        (∀ q, q ≠ p → t.lli.liftMarks.at q = s.lli.liftMarks.at q) ∧
        (t.lli.liftMarks.at p = (s.lli.liftMarks.at p || (t.pair p).lift != r.lift)) ∧
        RackHighApplied p s.dli.notices s t
      (r.transit = [] → exec c s = refused .badState) ∧
      (∀ e rest, r.transit = e :: rest → ∃ t, exec c s = .next t ∧
        Answered c tag 56 .ok (Transit.bytes e ++ [if r.oldestOverdue then 1 else 0, BitVec.ofNat 8 rest.length]) s t ∧
        t.pair p = { r with
          transit := rest
          oldestOverdue := false
          lift := lifted r.rack
          timer := if lifted r.rack = true ∧ rest ≠ [] then some s.mrp.params.returnTimeout else none
          causes := { r.causes with
            overdue := if r.oldestOverdue = true ∧ r.causes.overdue ≠ none then some true else r.causes.overdue
            overflow := if rest.length < 8 ∧ r.causes.overflow ≠ none then some true else r.causes.overflow } } ∧
        framed t ∧
        t = { u with brm := t.brm, lli := t.lli, dli := { t.dli with linkErrors := s.dli.linkErrors } }) ∧
      (r.capacity < count.toNat → exec d s = refused' .badValue) ∧
      (count.toNat ≤ r.capacity → ∃ t, exec d s = .next t ∧
        Answered d tag 57 .ok ([count, if lifted count.toNat then 1 else 0] ++ (t.pair p).causes.bytes) s t ∧
        t.pair p = { r with
          rack := count.toNat
          lift := lifted count.toNat
          timer := if lifted count.toNat = true ∧ r.transit ≠ [] ∧ r.oldestOverdue = false
            then some (r.timer.getD s.mrp.params.returnTimeout) else none
          causes := { r.causes with
            overrun := if count.toNat < r.capacity ∧ r.causes.overrun ≠ none then some true else r.causes.overrun } } ∧
        framed t ∧
        t = { v with brm := t.brm, lli := t.lli, dli := { t.dli with linkErrors := s.dli.linkErrors } }))

/-! ### Tariffs and sessions -/

/-- The start triggers, the gate and the meter of a PER_TIME session: an ARMED session starts at its first ball (R156); GATE follows the
gate condition and moves the state (R157); each second of the clock advances a RUNNING session, charges a minute at the sixtieth,
warns and expires the credit, and closes a segment when the band in force has changed (R159 to R162); the timers count (log 7). A first
ball taken in CONFIG or on a disabled lane starts nothing, as the model tests a frame again when it is taken (log 5).

The second, lane by lane in ascending order: a segment with minutes at another band than the one in force is closed with its TIME record;
a session that is then RUNNING counts its second, and its sixtieth charges a minute at the band in force; a credit spent warns or expires the
session with its last record; a segment that has reached 9999 minutes is closed (R159, R160, R161, R162). The order of the events owed
at an expiry is the model's (log 22). -/
def Obligations.SessionsStartAndAreMetered : Prop :=
  (∀ (l : Lane) (s : State),
    let x := s.session l
    let c := Instr.ballPassBilling l
    let g := Instr.gateEvaluation l
    let m := s.machine l
    let starts := s.mrp.part ≠ .config ∧ s.enabled l = true ∧ (s.terms l).map (·.trigger) = some .onFirstBall ∧
      x.state = .armed
    (starts → exec c s = .next { s with
      owed := s.owed.erase c
      blu := { s.blu with sessions := s.blu.sessions.put l { x with
        seconds := 0
        state := if x.causeGate = true ∨ x.causeLogFull = true then .suspended else .running } } }) ∧
    (¬ starts → exec c s = .next (s.without c)) ∧
    (∀ terms, s.terms l = some terms → x.state ≠ .closed →
      let gated := match terms.gate with
        | .none => false
        | .machine => decide (m.state = .fault ∨ m.state = .service ∨ m.holds.halt = true)
        | .machineAndReturn => decide (m.state = .fault ∨ m.state = .service ∨ m.holds.halt = true ∨ m.holds.pair = true)
      exec g s = .next { s with
        owed := s.owed.erase g
        blu := { s.blu with sessions := s.blu.sessions.put l { x with
          causeGate := gated
          state := if x.state = .running ∧ (gated = true ∨ x.causeLogFull = true) then .suspended
            else if x.state = .suspended ∧ gated = false ∧ x.causeLogFull = false then .running
            else x.state } } }) ∧
    (s.terms l = none ∨ x.state = .closed → exec g s = .next (s.without g))) ∧
  (∀ s : State, ∃ t, exec .clockAdvance s = .next t ∧
    t.mrp = { s.mrp with clock := if s.mrp.clock + 1 < 86400 then s.mrp.clock + 1 else 0 } ∧
    (∀ p, t.pair p = { s.pair p with timer := (s.pair p).timer.map (· - 1) }) ∧
    (∀ l, t.machine l = { s.machine l with
      timer := (s.machine l).timer.map (· - 1)
      holds := (t.machine l).holds }) ∧
    (∀ l, s.terms l = none ∨ (s.session l).state = .closed → t.session l = s.session l ∧ t.holds l = s.holds l) ∧
    (∀ l, ∀ tariff, s.sessionTariff l = some tariff → ∀ terms, tariff.timed = some terms → (s.session l).state ≠ .closed →
      let x := s.session l
      let band := tariff.bandAt t.mrp.clock
      let price := ((tariff.bands[band]?).map (·.price)).getD 0
      let keeps := x.segMinutes = 0 ∨ x.segBand = some band
      let charged : Session := { x with
        seconds := 0
        segMinutes := x.segMinutes + 1
        minutes := min (x.minutes + 1) 65535
        segBand := if x.segMinutes = 0 then some band else x.segBand
        segAmount := x.segAmount + price
        credit := x.credit.map (· - 1) }
      (keeps → x.state ≠ .running → t.session l = x ∧ t.holds l = s.holds l) ∧
      (keeps → x.state = .running → x.seconds + 1 < 60 →
        t.session l = { x with seconds := x.seconds + 1 } ∧ t.holds l = s.holds l) ∧
      (keeps → x.state = .running → 60 ≤ x.seconds + 1 → x.segMinutes + 1 ≠ 9999 → x.credit ≠ some 0 → x.credit ≠ some 1 →
        let low := x.credit.any fun c => decide (c - 1 ≤ terms.warn)
        t.session l = { charged with warned := x.warned || low } ∧ t.holds l = s.holds l ∧
        (low = true → x.warned = false →
          .ofLane .warn l ∈ t.dli.notices ∧ .warn ∈ (t.lli.console.at l).notices)) ∧
      (keeps → x.state = .running → 60 ≤ x.seconds + 1 → x.credit = some 1 →
        (t.session l).state = .expired ∧ (t.session l).credit = some 0 ∧ (t.session l).warned = true ∧
        (t.session l).segMinutes = 0 ∧ (t.session l).segAmount = 0 ∧ (t.session l).segBand = none ∧
        (t.session l).seconds = 0 ∧ (t.session l).minutes = charged.minutes ∧ (t.holds l).credit = true ∧
        .ofLane .expired l ∈ t.dli.notices ∧ .expired ∈ (t.lli.console.at l).notices ∧
        (s.blu.log.length + 64 ≤ 256 → (t.holds l).logfull = (s.holds l).logfull ∧ (∃ r ∈ t.blu.log,
          r.charge.session = x.id ∧ r.charge.lane = l ∧ r.charge.stamp = t.mrp.clock ∧
          r.charge.body = .time (charged.segBand.getD 0) charged.segMinutes
            (((tariff.bands[charged.segBand.getD 0]?).map (·.price)).getD 0) (BitVec.ofNat 48 charged.segAmount)) ∧
          (x.accrued.toNat + charged.segAmount < 2 ^ 48 →
            (t.session l).accrued.toNat = x.accrued.toNat + charged.segAmount))) ∧
      (¬ keeps → x.state ≠ .running → s.blu.log.length + 64 ≤ 256 → x.accrued.toNat + x.segAmount < 2 ^ 48 →
        t.session l = { x with
          segMinutes := 0, segAmount := 0, segBand := none, accrued := x.accrued + BitVec.ofNat 48 x.segAmount } ∧
        ∃ r ∈ t.blu.log, r.charge.session = x.id ∧ r.charge.lane = l ∧ r.charge.stamp = t.mrp.clock ∧
          r.charge.body = .time (x.segBand.getD 0) x.segMinutes
            (((tariff.bands[x.segBand.getD 0]?).map (·.price)).getD 0) (BitVec.ofNat 48 x.segAmount))) ∧
    t.blu.log.take s.blu.log.length = s.blu.log ∧
    t = { s with
      owed := t.owed
      psv := t.psv
      brm := t.brm
      mrp := t.mrp
      blu := { s.blu with sessions := t.blu.sessions, log := t.blu.log, nextSeq := t.blu.nextSeq }
      lli := { s.lli with console := t.lli.console }
      dli := { s.dli with notices := t.dli.notices }
      draws := t.draws }) ∧
  (∀ s : State, exec .clockAdvance s = .next (allLanes.foldl (fun t l => meterSecond l t) { s with
    owed := s.owed.erase .clockAdvance
    mrp := { s.mrp with clock := if s.mrp.clock + 1 < 86400 then s.mrp.clock + 1 else 0 }
    psv := Table.map (fun m => { m with timer := m.timer.map (· - 1) }) s.psv
    brm := Table.map (fun r => { r with timer := r.timer.map (· - 1) }) s.brm })) ∧
  (∀ (l : Lane) (s : State),
    (s.terms l = none ∨ (s.session l).state = .closed → meterSecond l s = s) ∧
    (∀ tariff, s.sessionTariff l = some tariff → ∀ terms, tariff.timed = some terms → (s.session l).state ≠ .closed →
      let price (b : Nat) := ((tariff.bands[b]?).map (·.price)).getD 0
      let band := tariff.bandAt s.mrp.clock
      let record (x : Session) : ChargeBody :=
        .time (x.segBand.getD 0) x.segMinutes (price (x.segBand.getD 0)) (BitVec.ofNat 48 x.segAmount)
      let stored (x : Session) (w : State) : State := { w with blu := { w.blu with sessions := w.blu.sessions.put l x } }
      let closed (x : Session) (w : State) : State :=
        makeCharge l (record x) (stored { x with segMinutes := 0, segBand := none, segAmount := 0 } w)
      let x := s.session l
      let v := if x.segMinutes = 0 ∨ x.segBand = some band then s else closed x s
      let y := v.session l
      let minute : Session := { y with
        seconds := 0
        segMinutes := y.segMinutes + 1
        minutes := min (y.minutes + 1) 65535
        segBand := if y.segMinutes = 0 then some band else y.segBand
        segAmount := y.segAmount + price band }
      let ended (z : Session) (w : State) : State := if z.segMinutes = 9999 then closed z w else stored z w
      (y.state ≠ .running → meterSecond l s = v) ∧
      (y.state = .running → y.seconds + 1 < 60 → meterSecond l s = stored { y with seconds := y.seconds + 1 } v) ∧
      (y.state = .running → 60 ≤ y.seconds + 1 → y.credit = none → meterSecond l s = ended minute v) ∧
      (∀ c, y.state = .running → 60 ≤ y.seconds + 1 → y.credit = some c → 2 ≤ c →
        (c - 1 ≤ terms.warn → y.warned = false →
          meterSecond l s = ended { minute with credit := some (c - 1), warned := true } { v with
            lli := { v.lli with console := v.lli.console.put l ⟨(v.lli.console.at l).stale,
              if .warn ∈ (v.lli.console.at l).notices then (v.lli.console.at l).notices
              else (v.lli.console.at l).notices ++ [.warn]⟩ }
            dli := { v.dli with notices := noticesRaised (.ofLane .warn l) v.dli.notices } }) ∧
        (terms.warn < c - 1 ∨ y.warned = true → meterSecond l s = ended { minute with credit := some (c - 1) } v)) ∧
      (y.state = .running → 60 ≤ y.seconds + 1 → y.credit = some 1 →
        let e := closed { minute with credit := some 0 } v
        meterSecond l s = stored { e.session l with warned := true, state := .expired } { e with
          psv := e.psv.put l { e.machine l with holds := { e.holds l with credit := true } }
          owed := e.owed ++ if (e.holds l).credit then [] else [.holdSetChange l, .gateEvaluation l]
          lli := { e.lli with console := e.lli.console.put l ⟨(e.lli.console.at l).stale,
            if .expired ∈ (e.lli.console.at l).notices then (e.lli.console.at l).notices
            else (e.lli.console.at l).notices ++ [.expired]⟩ }
          dli := { e.dli with notices := noticesRaised (.ofLane .expired l) e.dli.notices } })))

/-- TARIFF_LOAD: its table, then the tariff replaced by the request's values (R151, R152). SESSION_OPEN: its table, then the record
with the request's values, every meter 0, warned and the gate set for a PER_TIME tariff, and the state of Table 9-1 (R155). The
codes of the basis in the request and in the tariff answered, PER_GAME 1 and PER_TIME 2, are the model's reading (log 15). -/
def Obligations.TariffsAreLoadedAndSessionsOpened : Prop :=
  (∀ (tag : BitVec 16) (index basis count : Byte) (bands : List WireBand) (trigger gate warn rounding : Byte) (s : State),
    s.responsesQueued < 8 → bands.length = count.toNat →
    let c := Instr.tariffLoad tag index basis count bands trigger gate warn rounding
    let u := takeHead c s
    let refused (r : Result) := Host.Outcome.next (φ := Fault) (ρ := Refusal) (respond tag 64 r [] u)
    let level := if warn = 255 then 5 else warn.toNat
    let starts := bands.map (·.start.toNat)
    let timed : TimedTerms :=
      ⟨(triggerOf trigger.toNat).getD .onOpen, (gateOf gate.toNat).getD .none, level, rounding.toNat⟩
    let loaded : Tariff := ⟨bands.map fun b => ⟨b.start.toNat, b.price.toNat⟩, if basis = 2 then some timed else none⟩
    let good := (basis = 1 ∨ basis = 2) ∧ 1 ≤ count.toNat ∧ count.toNat ≤ 4 ∧ starts.head? = some 0 ∧
      starts.Pairwise (· < ·) ∧ (∀ n ∈ starts, n ≤ 1439) ∧
      (basis = 2 → 1 ≤ trigger.toNat ∧ trigger.toNat ≤ 3 ∧ 1 ≤ gate.toNat ∧ gate.toNat ≤ 3 ∧ level ≤ 99 ∧
        1 ≤ rounding.toNat ∧ rounding.toNat ≤ 60)
    (15 < index.toNat ∨ ¬ good → exec c s = refused .badValue) ∧
    (∀ i, tariffOf index.toNat = some i → good →
      let used := ∃ l, (s.session l).state ≠ .closed ∧ (s.session l).tariff = i
      (used → exec c s = refused .inUse) ∧
      (¬ used → exec c s = .next (respond tag 64 .ok ([index] ++ loaded.bytes)
        { u with blu := { s.blu with tariffs := s.blu.tariffs.put i (some loaded) } })))) ∧
  (∀ (tag : BitVec 16) (lane : Byte) (session : BitVec 16) (index : Byte) (field : BitVec 16) (s : State),
    s.responsesQueued < 8 →
    let c := Instr.sessionOpen tag lane session index field
    let u := takeHead c s
    let refused (r : Result) := Host.Outcome.next (φ := Fault) (ρ := Refusal) (respond tag 66 r [] u)
    let credit := if field = 65535 then none else some field.toNat
    (s.mrp.part = .config → exec c s = refused .badState) ∧
    (s.mrp.part ≠ .config → laneOf lane.toNat = none ∨ 15 < index.toNat → exec c s = refused .badValue) ∧
    (∀ l, laneOf lane.toNat = some l → ∀ i, tariffOf index.toNat = some i → s.mrp.part ≠ .config →
      (s.enabled l = false ∨ (s.session l).state ≠ .closed ∨ s.tariff i = none ∨ s.mrp.clockSet = false →
        exec c s = refused .badState) ∧
      (∀ tariff, s.tariff i = some tariff → s.enabled l = true → (s.session l).state = .closed → s.mrp.clockSet = true →
        let bad := credit.any fun x => match tariff.timed with
          | none => decide (999 < x)
          | some _ => decide (x = 0 ∨ 9999 < x)
        let m := s.machine l
        let gated := match tariff.timed.map TimedTerms.gate with
          | some Gate.machine => decide (m.state = .fault ∨ m.state = .service ∨ m.holds.halt = true)
          | some Gate.machineAndReturn =>
            decide (m.state = .fault ∨ m.state = .service ∨ m.holds.halt = true ∨ m.holds.pair = true)
          | _ => false
        let state : SessionState := match tariff.timed.map TimedTerms.trigger with
          | none => .running
          | some Trigger.onOpen => if gated then .suspended else .running
          | some _ => .armed
        let opened : Session :=
          { state := state, id := session, tariff := i, credit := credit, reserved := 0, seconds := 0, segMinutes := 0,
            segBand := none, segAmount := 0, accrued := 0, games := 0, minutes := 0, partialCharged := false,
            owed := none, causeGate := gated, causeLogFull := false,
            warned := tariff.timed.any fun x => credit.any fun n => decide (n ≤ x.warn) }
        (bad = true → exec c s = refused .badValue) ∧
        (bad = false → exec c s = .next (respond tag 66 .ok [BitVec.ofNat 8 state.code]
          { u with blu := { s.blu with sessions := s.blu.sessions.put l opened } })))))

/-- SESSION_TOPUP: its table, then the credit added to within its limit, warned cleared above the warn level, and an EXPIRED session
revived with CREDIT released (R163). SESSION_CLOSE: its table, then the partial minute, the last segment's TIME record, the CLOSE
record, and the state CLOSED with CREDIT released and WARN and EXPIRED withdrawn (R167, R168). -/
def Obligations.SessionsAreToppedUpAndClosed : Prop :=
  (∀ (tag : BitVec 16) (lane : Byte) (amount : BitVec 16) (s : State), s.responsesQueued < 8 →
    let c := Instr.sessionTopup tag lane amount
    let u := takeHead c s
    let refused (r : Result) := Host.Outcome.next (φ := Fault) (ρ := Refusal) (respond tag 67 r [] u)
    (s.mrp.part = .config → exec c s = refused .badState) ∧
    (s.mrp.part ≠ .config → laneOf lane.toNat = none ∨ amount.toNat = 0 ∨ 9999 < amount.toNat →
      exec c s = refused .badValue) ∧
    (∀ l, laneOf lane.toNat = some l → s.mrp.part ≠ .config → 1 ≤ amount.toNat → amount.toNat ≤ 9999 →
      let x := s.session l
      let most := if (s.terms l).isSome then 9999 else 999
      (x.state = .closed → exec c s = refused .badState) ∧
      (x.state ≠ .closed → x.credit = none → exec c s = refused .badValue) ∧
      (∀ n, x.credit = some n → x.state ≠ .closed →
        let credit := min (n + amount.toNat) most
        let above := (s.terms l).any fun y => decide (y.warn < credit)
        ∃ t, exec c s = .next t ∧
          Answered c tag 67 .ok (optBytes u16 (some credit) ++ [BitVec.ofNat 8 (t.session l).state.code] ++
            yesNo (t.session l).warned ++ u16 (n + amount.toNat - credit)) s t ∧
          (∀ k, k ≠ l → t.session k = s.session k ∧ t.machine k = s.machine k) ∧
          t.session l = { x with
            credit := some credit
            warned := if above = true then false else x.warned
            seconds := if x.state = .expired then 0 else x.seconds
            state := if x.state = .expired then
              (if x.causeGate = true ∨ x.causeLogFull = true then .suspended else .running) else x.state } ∧
          t.machine l = { s.machine l with
            holds := { s.holds l with credit := if x.state = .expired then false else (s.holds l).credit } } ∧
          (x.state ≠ .expired → t.owed = s.owed) ∧
          (∀ e, e ∈ t.owed → e ∈ s.owed ∨ e = .holdSetChange l ∨ e = .gateEvaluation l) ∧
          (s.dli.notices.Nodup → t.dli.notices = s.dli.notices.filter fun e =>
            !(above && decide (e = .ofLane .warn l)) && !(decide (x.state = .expired) && decide (e = .ofLane .expired l))) ∧
          t = { u with
            owed := t.owed
            psv := t.psv
            blu := { s.blu with sessions := t.blu.sessions }
            dli := { t.dli with linkErrors := s.dli.linkErrors } }))) ∧
  (∀ (tag : BitVec 16) (lane : Byte) (s : State), s.responsesQueued < 8 →
    let c := Instr.sessionClose tag lane
    let u := takeHead c s
    let refused (r : Result) := Host.Outcome.next (φ := Fault) (ρ := Refusal) (respond tag 68 r [] u)
    (s.mrp.part = .config → exec c s = refused .badState) ∧
    (s.mrp.part ≠ .config → laneOf lane.toNat = none → exec c s = refused .badValue) ∧
    (∀ l, laneOf lane.toNat = some l → s.mrp.part ≠ .config →
      (s.session l).state = .closed → exec c s = refused .badState) ∧
    (∀ l, laneOf lane.toNat = some l → ∀ tariff, s.sessionTariff l = some tariff → s.mrp.part ≠ .config →
      (s.session l).state ≠ .closed →
      let x := s.session l
      let partialDue := tariff.timed.any fun y => decide (0 < x.seconds ∧ y.rounding ≤ x.seconds ∧ x.state ≠ .expired)
      let extra := if partialDue then 1 else 0
      let price (b : Nat) := ((tariff.bands[b]?).map (·.price)).getD 0
      let now := tariff.bandAt s.mrp.clock
      let band := if x.segMinutes = 0 then now else x.segBand.getD 0
      let amount := x.segAmount + extra * price now
      let finalDue := tariff.timed.isSome && decide (0 < x.segMinutes + extra)
      let places := if finalDue then 2 else 1
      let accrued := if finalDue then x.accrued + BitVec.ofNat 48 amount else x.accrued
      let minutes := if partialDue then min (x.minutes + 1) 65535 else x.minutes
      let part := x.partialCharged || partialDue
      let final : List Charge := if finalDue then
        [⟨x.id, l, s.mrp.clock, .time band (x.segMinutes + extra) (price band) (BitVec.ofNat 48 amount)⟩] else []
      let records := final ++ [⟨x.id, l, s.mrp.clock, .close x.games minutes accrued part⟩]
      (s.homesTeam l = true → exec c s = refused .inUse) ∧
      (s.homesTeam l = false → x.owed ≠ none ∨ 256 - s.blu.log.length < places → exec c s = refused .logFull) ∧
      (s.homesTeam l = false → x.owed = none → s.blu.log.length + places ≤ 256 →
        (finalDue = true → x.accrued.toNat + amount < 2 ^ 48) →
        (0 < x.segMinutes → x.segBand ≠ none) → ∃ t, exec c s = .next t ∧
          Answered c tag 68 .ok (optBytes u16 (t.session l).credit ++ u16 minutes ++ u16 x.games ++
            moneyBytes accrued.toNat ++ yesNo part ++ bytes16 (t.blu.nextSeq - 1)) s t ∧
          t.blu.log = s.blu.log ++ records.zipIdx.map (fun e => ⟨s.blu.nextSeq + BitVec.ofNat 16 e.2, e.1⟩) ∧
          t.blu.nextSeq = s.blu.nextSeq + BitVec.ofNat 16 places ∧
          t.session l = { x with
            state := .closed
            credit := if partialDue then x.credit.map (· - 1) else x.credit
            seconds := if tariff.timed.isSome then 0 else x.seconds
            segMinutes := if tariff.timed.isSome then 0 else x.segMinutes
            segBand := if finalDue then none else x.segBand
            segAmount := if finalDue then 0 else x.segAmount
            accrued := accrued
            minutes := minutes
            partialCharged := part
            causeGate := false
            causeLogFull := false } ∧
          (∀ k, k ≠ l → t.session k = s.session k ∧ t.machine k = s.machine k) ∧
          t.machine l = { s.machine l with holds := { s.holds l with credit := false } } ∧
          (s.dli.notices.Nodup → .ofLane .warn l ∉ t.dli.notices ∧ .ofLane .expired l ∉ t.dli.notices ∧
            ∀ e, e ≠ .ofLane .warn l → e ≠ .ofLane .expired l → e ≠ .ofPart .logHigh →
              (e ∈ t.dli.notices ↔ e ∈ s.dli.notices)) ∧
          t = { u with
            owed := t.owed
            psv := t.psv
            blu := { s.blu with sessions := t.blu.sessions, log := t.blu.log, nextSeq := t.blu.nextSeq }
            dli := { t.dli with linkErrors := s.dli.linkErrors } })))

/-- The charge log: CHARGE_FETCH returns up to n records from the fetch position and moves it past them; CHARGE_SETTLE removes the
records through a held and fetched one and writes owed records into the freed places in ascending lane order, releasing LOGFULL,
until none remains or the log is full again, the lanes beyond keeping theirs; CHARGE_REWIND returns the fetch position to the
oldest record (R172, R175, R176, R177, R178).

A settle raises LOG_HIGH when an owed record's entry takes the held count from below the level to it, and withdraws it when the count,
judged after the writing, has gone from the level or above to below it; no other notice changes (R179).

That held counts and the number removed are sent in two bytes is the model's reading (log 16). -/
def Obligations.TheChargeLogIsFetchedSettledAndRewound : Prop :=
  ∀ (tag : BitVec 16) (n : Byte) (seq : BitVec 16) (s : State), s.responsesQueued < 8 →
    let fetch := Instr.chargeFetch tag n
    let settle := Instr.chargeSettle tag seq
    let rewind := Instr.chargeRewind tag
    let oldest := (s.blu.log.head?.map (·.seq)).getD s.blu.nextSeq
    let offset := (s.blu.fetchPos - oldest).toNat
    let distance := (seq - oldest).toNat
    let records := (s.blu.log.drop offset).take n.toNat
    let rest := s.blu.log.drop (distance + 1)
    let lanes := (allLanes.filter fun l => (s.session l).owed.isSome).take (256 - rest.length)
    let dues := lanes.filterMap fun l => (s.session l).owed
    let written := dues.zipIdx.map fun e => LogRecord.mk (s.blu.nextSeq + BitVec.ofNat 16 e.2) e.1
    (n = 0 ∨ 8 < n.toNat → exec fetch s = .next (respond tag 72 .badValue [] (takeHead fetch s))) ∧
    (1 ≤ n.toNat → n.toNat ≤ 8 → exec fetch s = .next (respond tag 72 .ok
      (BitVec.ofNat 8 records.length :: records.flatMap LogRecord.bytes)
      { takeHead fetch s with blu := { s.blu with fetchPos := s.blu.fetchPos + BitVec.ofNat 16 records.length } })) ∧
    exec rewind s = .next (respond tag 74 .ok (bytes16 oldest ++ u16 s.blu.log.length)
      { takeHead rewind s with blu := { s.blu with fetchPos := oldest } }) ∧
    (s.blu.log.length ≤ distance ∨ offset ≤ distance →
      exec settle s = .next (respond tag 73 .badValue [] (takeHead settle s))) ∧
    (distance < s.blu.log.length → distance < offset → ∃ t, exec settle s = .next t ∧
      Answered settle tag 73 .ok (u16 (distance + 1) ++ (BitVec.ofNat 8 written.length :: written.flatMap fun r =>
        BitVec.ofNat 8 (numberOf r.charge.lane) :: bytes16 r.seq) ++ u16 t.blu.log.length) s t ∧
      t.blu.log = rest ++ written ∧ t.blu.fetchPos = s.blu.fetchPos ∧
      t.blu.nextSeq = s.blu.nextSeq + BitVec.ofNat 16 dues.length ∧
      (∀ l, l ∉ lanes → t.session l = s.session l ∧ t.machine l = s.machine l) ∧
      (∀ l, l ∈ lanes →
        t.session l = { s.session l with
          owed := none
          causeLogFull := false
          state := if (s.session l).state = .suspended ∧ (s.session l).causeGate = false then .running
            else if (s.session l).state = .running ∧ (s.session l).causeGate = true then .suspended
            else (s.session l).state } ∧
        t.machine l = { s.machine l with holds := { s.holds l with logfull := false } } ∧
        ((s.holds l).logfull = true → .holdSetChange l ∈ t.owed ∧ .gateEvaluation l ∈ t.owed)) ∧
      t.dli.notices =
        (if rest.length < s.mrp.params.logHigh ∧ s.mrp.params.logHigh ≤ t.blu.log.length then
          noticesRaised (.ofPart .logHigh) s.dli.notices
        else if s.mrp.params.logHigh ≤ s.blu.log.length ∧ t.blu.log.length < s.mrp.params.logHigh then
          s.dli.notices.erase (.ofPart .logHigh)
        else s.dli.notices) ∧
      t = { takeHead settle s with
        owed := t.owed
        psv := t.psv
        blu := { s.blu with sessions := t.blu.sessions, log := t.blu.log, nextSeq := t.blu.nextSeq }
        dli := { t.dli with linkErrors := s.dli.linkErrors } })

/-! ### Configuration -/

/-- LANE_MAP_LOAD, PAIR_MAP_LOAD and DISPOSITION_LOAD: their tables, then the one entry replaced by the request's values, an address
field of 0 standing for an absent address; a pair entry with a BR address marks a LIFT (R2, R3, R10). -/
def Obligations.TheMapsAreLoaded : Prop :=
  (∀ (tag : BitVec 16) (lane enabled ps fl cn : Byte) (s : State), s.responsesQueued < 8 →
    let c := Instr.laneMapLoad tag lane enabled ps fl cn
    let u := takeHead c s
    let refused (r : Result) := Host.Outcome.next (φ := Fault) (ρ := Refusal) (respond tag 16 r [] u)
    let address (b : Byte) := if b = 0 then none else some b
    (s.mrp.part ≠ .config → exec c s = refused .badState) ∧
    (s.mrp.part = .config → laneOf lane.toNat = none ∨ 1 < enabled.toNat ∨ 127 ≤ ps.toNat ∨ 127 ≤ fl.toNat ∨
      127 ≤ cn.toNat → exec c s = refused .badValue) ∧
    (∀ l, laneOf lane.toNat = some l → s.mrp.part = .config → enabled.toNat ≤ 1 → ps.toNat < 127 → fl.toNat < 127 →
      cn.toNat < 127 → exec c s = .next (respond tag 16 .ok [] { u with
        frr := { s.frr with lanes := s.frr.lanes.put l ⟨enabled = 1, address ps, address fl, address cn⟩ } }))) ∧
  (∀ (tag : BitVec 16) (pair br capacity level initial : Byte) (s : State), s.responsesQueued < 8 →
    let c := Instr.pairMapLoad tag pair br capacity level initial
    let u := takeHead c s
    let refused (r : Result) := Host.Outcome.next (φ := Fault) (ρ := Refusal) (respond tag 17 r [] u)
    let good := br.toNat < 127 ∧ 4 ≤ capacity.toNat ∧ capacity.toNat ≤ 24 ∧ level.toNat < capacity.toNat ∧ initial.toNat ≤ 24
    (s.mrp.part ≠ .config → exec c s = refused .badState) ∧
    (s.mrp.part = .config → pairNumbered pair.toNat = none ∨ ¬ good → exec c s = refused .badValue) ∧
    (∀ p, pairNumbered pair.toNat = some p → s.mrp.part = .config → good →
      let entered (e : PairEntry) (link : LaneLink) := exec c s = .next (respond tag 17 .ok []
        { u with frr := { s.frr with pairs := s.frr.pairs.put p e }, lli := link })
      (br = 0 → entered ⟨none, capacity.toNat, level.toNat, initial.toNat⟩ s.lli) ∧
      (br ≠ 0 → entered ⟨some br, capacity.toNat, level.toNat, initial.toNat⟩
        { s.lli with liftMarks := s.lli.liftMarks.put p true }))) ∧
  (∀ (tag : BitVec 16) (role kind action : Byte) (s : State), s.responsesQueued < 8 →
    let c := Instr.dispositionLoad tag role kind action
    let u := takeHead c s
    let refused := Host.Outcome.next (φ := Fault) (ρ := Refusal) (respond tag 18 .badValue [] u)
    (roleOf role.toNat = none ∨ 31 < kind.toNat ∨ dispositionOf action.toNat = none → exec c s = refused) ∧
    (∀ r, roleOf role.toNat = some r → ∀ d, dispositionOf action.toNat = some d → kind.toNat ≤ 31 →
      let fits := actedOn r kind.toNat = true ↔ d = .consume ∨ d = .consumeCopy
      (¬ fits → exec c s = refused) ∧
      (fits → ∃ t, exec c s = .next t ∧ Answered c tag 18 .ok [] s t ∧
        (∀ q (k : Fin 32), t.disposition q k.val = if q = r ∧ k.val = kind.toNat then d else s.disposition q k.val) ∧
        t = { u with
          frr := { s.frr with dispositions := t.frr.dispositions }
          dli := { t.dli with notices := s.dli.notices, linkErrors := s.dli.linkErrors } })))

/-- PARAM_SET: its table, then each field not marked unchanged replaces its parameter, a pass following a dispatch parameter (R53, R183;
log 21). TIME_SET: its table, then the clock and its flag, and the band check (R160, R184). -/
def Obligations.ParametersAndTheClockAreSet : Prop :=
  (∀ (tag : BitVec 16) (budget r1 r2 r3 low cycle ret : Byte) (high : BitVec 16) (safety : Byte) (s : State),
    s.responsesQueued < 8 →
    let c := Instr.paramSet tag budget r1 r2 r3 low cycle ret high safety
    let u := takeHead c s
    let refused (r : Result) := Host.Outcome.next (φ := Fault) (ρ := Refusal) (respond tag 3 r [] u)
    let within (b : Byte) (first last : Nat) := b = 255 ∨ (first ≤ b.toNat ∧ b.toNat ≤ last)
    let classes := [r1.toNat, r2.toNat, r3.toNat]
    let good := within budget 1 16 ∧ within low 0 15 ∧ within cycle 4 60 ∧ within ret 5 120 ∧ within safety 0 1 ∧
      (high = 65535 ∨ (1 ≤ high.toNat ∧ high.toNat ≤ 256)) ∧
      (r1 = 255 ∨ (classes.Nodup ∧ ∀ n ∈ classes, 1 ≤ n ∧ n ≤ 3))
    let old := s.mrp.params
    let params : Params :=
      { slotBudget := if budget = 255 then old.slotBudget else budget.toNat
        ranks := if r1 = 255 then old.ranks else classes.filterMap classOf
        batchLow := if low = 255 then old.batchLow else low.toNat
        cycleTimeout := if cycle = 255 then old.cycleTimeout else cycle.toNat
        returnTimeout := if ret = 255 then old.returnTimeout else ret.toNat
        logHigh := if high = 65535 then old.logHigh else high.toNat
        safetyHalts := if safety = 255 then old.safetyHalts else decide (safety = 1) }
    (¬ good → exec c s = refused .badValue) ∧
    (good → budget ≠ 255 → budget.toNat < s.slotsInUse → exec c s = refused .inUse) ∧
    (good → budget = 255 ∨ s.slotsInUse ≤ budget.toNat →
      (budget = 255 → r1 = 255 → low = 255 →
        exec c s = .next (respond tag 3 .ok params.bytes { u with mrp := { s.mrp with params := params } })) ∧
      ∃ t, exec c s = .next t ∧ Answered c tag 3 .ok params.bytes s t ∧ t.mrp = { s.mrp with params := params } ∧
        (budget ≠ 255 ∨ r1 ≠ 255 ∨ low ≠ 255 → params.slotBudget ≤ t.slotsInUse ∨ choose t = none) ∧
        t = { u with
          mrp := t.mrp, owed := t.owed, psv := t.psv, cdp := t.cdp, lli := t.lli
          dli := { t.dli with linkErrors := s.dli.linkErrors } })) ∧
  (∀ (tag : BitVec 16) (seconds : BitVec 32) (s : State), s.responsesQueued < 8 →
    let c := Instr.timeSet tag seconds
    (86399 < seconds.toNat → exec c s = .next (respond tag 5 .badValue [] (takeHead c s))) ∧
    (seconds.toNat ≤ 86399 → ∃ t, exec c s = .next t ∧
      Answered c tag 5 .ok (bytes32 seconds ++ [1]) s t ∧
      t.mrp = { s.mrp with clock := seconds.toNat, clockSet := true } ∧
      (∀ l, s.terms l = none ∨ (s.session l).state = .closed ∨ (s.session l).segMinutes = 0 →
        t.session l = s.session l ∧ t.machine l = s.machine l) ∧
      (∀ l, ∀ tariff, s.sessionTariff l = some tariff → tariff.timed ≠ none → (s.session l).state ≠ .closed →
        0 < (s.session l).segMinutes →
        let x := s.session l
        (x.segBand = some (tariff.bandAt seconds.toNat) → t.session l = x ∧ t.machine l = s.machine l) ∧
        (x.segBand ≠ some (tariff.bandAt seconds.toNat) → s.blu.log.length + 32 ≤ 256 →
          x.accrued.toNat + x.segAmount < 2 ^ 48 →
          t.session l = { x with
            segMinutes := 0, segAmount := 0, segBand := none, accrued := x.accrued + BitVec.ofNat 48 x.segAmount } ∧
          t.machine l = s.machine l)) ∧
      t.blu.log.take s.blu.log.length = s.blu.log ∧
      t = { takeHead c s with
        mrp := t.mrp
        owed := t.owed
        psv := t.psv
        blu := { s.blu with sessions := t.blu.sessions, log := t.blu.log, nextSeq := t.blu.nextSeq }
        dli := { t.dli with linkErrors := s.dli.linkErrors }
        draws := t.draws }))

/-- COMMIT: its table, each violation naming its first lane or pair, then RUN, or HALTED with the Halt Line observed asserted, the PROBE
marks and stale displays of the enabled lanes, and the pair entries taken into the pair records (R149, R185, R186). The codes of
the violations are log 15.

RACK_HIGH is raised for every pair then at its level or below, and on the consoles of its lanes, PART_STATE is raised, and no other
notice changes (R138, R149, R186); in which order several pairs are raised is the model's (log 29). -/
def Obligations.TheConfigurationIsCommitted : Prop :=
  ∀ (tag : BitVec 16) (s : State), s.responsesQueued < 8 →
    let c := Instr.commit tag
    let u := takeHead c s
    let violated (fields : List Byte) := Host.Outcome.next (φ := Fault) (ρ := Refusal) (respond tag 6 .badValue fields u)
    let lacking (l : Lane) := s.enabled l = true ∧
      ((s.laneEntry l).ps = none ∨ (s.laneEntry l).fl = none ∨ (s.laneEntry l).cn = none)
    let bare (p : Pair) := s.pairEnabled p = true ∧ (s.pairEntry p).br = none
    let heaped (p : Pair) := (s.pairEntry p).capacity < (s.pairEntry p).initialRack
    let reading : List (Byte × Nat) :=
      (allLanes.flatMap fun l => if s.enabled l then
        ([(s.laneEntry l).ps, (s.laneEntry l).fl, (s.laneEntry l).cn].filterMap id).map fun a => (a, numberOf l) else []) ++
      (allPairs.flatMap fun p => if s.pairEnabled p then
        ((s.pairEntry p).br.toList).map fun a => (a, numberOf p) else [])
    let addresses := reading.map (·.1)
    (s.mrp.part ≠ .config → exec c s = .next (respond tag 6 .badState [] u)) ∧
    (∀ l, s.mrp.part = .config → lacking l → (∀ k, k < l → ¬ lacking k) →
      exec c s = violated [1, BitVec.ofNat 8 (numberOf l)]) ∧
    (∀ p, s.mrp.part = .config → (∀ l, ¬ lacking l) → bare p → (∀ q, q < p → ¬ bare q) →
      exec c s = violated [2, BitVec.ofNat 8 (numberOf p)]) ∧
    (∀ p, s.mrp.part = .config → (∀ l, ¬ lacking l) → (∀ q, ¬ bare q) → heaped p → (∀ q, q < p → ¬ heaped q) →
      exec c s = violated [3, BitVec.ofNat 8 (numberOf p)]) ∧
    (∀ j : Fin 112, ∀ e, reading[j.val]? = some e → s.mrp.part = .config → (∀ l, ¬ lacking l) →
      (∀ p, ¬ bare p ∧ ¬ heaped p) → (addresses.take j.val).Nodup → e.1 ∈ addresses.take j.val →
      exec c s = violated [4, BitVec.ofNat 8 e.2]) ∧
    (s.mrp.part = .config → (∀ l, ¬ lacking l) → (∀ p, ¬ bare p ∧ ¬ heaped p) → addresses.Nodup →
      (∀ l, (s.machine l).state = .off) → ∃ t, exec c s = .next t ∧
      Answered c tag 6 .ok [BitVec.ofNat 8 t.mrp.part.code] s t ∧
      t.mrp = { s.mrp with
        part := if s.mrp.halt.observed then .halted else .run
        halt := { s.mrp.halt with
          resumeRequested := if s.mrp.halt.observed then false else s.mrp.halt.resumeRequested } } ∧
      (∀ l, t.machine l = { s.machine l with holds := { s.holds l with
        halt := s.mrp.halt.observed || (s.holds l).halt
        pair := (s.holds l).pair || decide ((s.pair (pairOf l)).causes ≠ ⟨none, none, none, none⟩) } }) ∧
      (∀ l, t.lli.probeMarks.at l = (s.enabled l || s.lli.probeMarks.at l)) ∧
      (∀ l, (t.lli.console.at l).stale = (s.enabled l || (s.lli.console.at l).stale)) ∧
      (∀ p,
        let r := s.pair p
        let e := s.pairEntry p
        let lift := decide (s.mrp.halt.observed = false) && s.pairEnabled p && decide (e.initialRack < e.capacity)
        let free : Int := (e.capacity : Int) - e.initialRack - r.transit.length
        t.pair p = { r with
          capacity := e.capacity
          almostFull := e.almostFull
          rack := e.initialRack
          lift := lift
          timer := if lift = true ∧ r.transit ≠ [] ∧ r.oldestOverdue = false then
            (t.pair p).timer else none
          causes := { r.causes with overrun :=
            if e.initialRack < e.capacity ∧ r.causes.overrun ≠ none then some true else r.causes.overrun } } ∧
        (lift = true → r.transit ≠ [] → r.oldestOverdue = false → r.timer = none →
          (t.pair p).timer = some s.mrp.params.returnTimeout) ∧
        (free ≤ e.almostFull → .ofPair .rackHigh p ∈ t.dli.notices ∧
          .rackHigh ∈ (t.lli.console.at (oddLane p)).notices ∧ .rackHigh ∈ (t.lli.console.at (evenLane p)).notices) ∧
        (s.pairEnabled p = true → lift ≠ r.lift → t.lli.liftMarks.at p = true)) ∧
      (let high (p : Pair) : Bool :=
         let e := s.pairEntry p
         decide ((e.capacity : Int) - e.initialRack - (s.pair p).transit.length ≤ e.almostFull)
       (∀ n, n ∈ t.dli.notices ↔ n ∈ s.dli.notices ∨ n = .ofPart .partState ∨ ∃ p, high p = true ∧ n = .ofPair .rackHigh p) ∧
       (∀ l, (t.lli.console.at l).notices =
         if high (pairOf l) ∧ .rackHigh ∉ (s.lli.console.at l).notices then (s.lli.console.at l).notices ++ [.rackHigh]
         else (s.lli.console.at l).notices)) ∧
      t = { u with
        owed := t.owed, psv := t.psv, brm := t.brm, mrp := t.mrp
        lli := { s.lli with liftMarks := t.lli.liftMarks, probeMarks := t.lli.probeMarks, console := t.lli.console }
        dli := { t.dli with linkErrors := s.dli.linkErrors } })

/-- RECONFIGURE: its table, then CONFIG with every machine OFF and cleared but for its tag and deck pattern, the Cycle Dispatcher as after a
part reset, no delivery, no correction and every pair OPEN, every lift HALT and timer stopped, and the downstream marks and console
traffic cleared (R46, R72, R74, R110, R120, R149, R187). -/
def Obligations.ThePartIsReconfigured : Prop :=
  ∀ (tag : BitVec 16) (s : State), s.responsesQueued < 8 →
    let c := Instr.reconfigure tag
    let u := takeHead c s
    let refused (r : Result) := Host.Outcome.next (φ := Fault) (ρ := Refusal) (respond tag 7 r [] u)
    let calm := ∀ l, (s.session l).state = .closed ∧ (s.machine l).state ≠ .cycling ∧ (s.machine l).state ≠ .stopping
    (s.mrp.part = .config → exec c s = refused .badState) ∧
    (s.mrp.part = .halting ∨ s.mrp.part = .halted → exec c s = refused .halted) ∧
    (s.mrp.part = .run → ¬ (calm ∧ ∀ k, s.team k = none) → exec c s = refused .inUse) ∧
    (s.mrp.part = .run → calm → (∀ k, s.team k = none) → ∃ t, exec c s = .next t ∧
      Answered c tag 7 .ok [0] s t ∧ t.mrp = { s.mrp with part := .config } ∧
      (∀ l, t.machine l = ⟨.off, (s.machine l).deck, false, (s.machine l).tag, none, none, none, false, none, none,
        ⟨false, false, false, false, false⟩⟩) ∧
      t.cdp = State.reset.cdp ∧ t.sce = { State.reset.sce with teams := s.sce.teams } ∧
      (∀ p, t.pair p = { s.pair p with lift := false, timer := none }) ∧
      t.lli = { s.lli with
        stopMarks := State.reset.lli.stopMarks
        cycleList := []
        liftMarks := t.lli.liftMarks
        probeMarks := State.reset.lli.probeMarks
        console := State.reset.lli.console } ∧
      (∀ p, t.lli.liftMarks.at p = (s.lli.liftMarks.at p || (s.pair p).lift)) ∧
      .ofPart .partState ∈ t.dli.notices ∧
      (s.dli.notices.Nodup → ∀ n, n ≠ .ofPart .partState →
        let gone := n = .ofPart .batchLow ∨
          ∃ l, n = .ofLane .machineFault l ∨ n = .ofLane .serviceReady l ∨ (n = .ofLane .correction l ∧ s.correction l ≠ none)
        (n ∈ t.dli.notices ↔ n ∈ s.dli.notices ∧ ¬ gone)) ∧
      t = { u with
        owed := t.owed, psv := t.psv, cdp := t.cdp, sce := t.sce, brm := t.brm, mrp := t.mrp, lli := t.lli
        dli := { t.dli with linkErrors := s.dli.linkErrors } })

/-- LANE_ENABLE, LANE_DISABLE and LANE_RESET: their tables, then what the blocks do with the lane (R47, R73, R108, R150, R188, R189, R190; the
last row of LANE_ENABLE as log 26 reads it), each with a dispatch pass. A reset of a lane of a PAIRED pair whose partner lane seats
a team in WAITING_CROSS then makes the cross check for it, and the response carries the cross and its slot (R118; the order is
log 27). -/
def Obligations.LanesAreEnabledDisabledAndReset : Prop :=
  ∀ (tag : BitVec 16) (lane : Byte) (s : State), s.responsesQueued < 8 →
    let on := Instr.laneEnable tag lane
    let off := Instr.laneDisable tag lane
    let again := Instr.laneReset tag lane
    let refusedOn (r : Result) := Host.Outcome.next (φ := Fault) (ρ := Refusal) (respond tag 8 r [] (takeHead on s))
    let refusedOff (r : Result) := Host.Outcome.next (φ := Fault) (ρ := Refusal) (respond tag 9 r [] (takeHead off s))
    let refusedAgain (r : Result) := Host.Outcome.next (φ := Fault) (ρ := Refusal) (respond tag 10 r [] (takeHead again s))
    let full (t : State) := s.mrp.params.slotBudget ≤ t.slotsInUse ∨ choose t = none
    (s.mrp.part = .config →
      exec on s = refusedOn .badState ∧ exec off s = refusedOff .badState ∧ exec again s = refusedAgain .badState) ∧
    (s.mrp.part ≠ .config → laneOf lane.toNat = none →
      exec on s = refusedOn .badValue ∧ exec off s = refusedOff .badValue ∧ exec again s = refusedAgain .badValue) ∧
    (∀ l, laneOf lane.toNat = some l → s.mrp.part ≠ .config →
      (s.mrp.part ≠ .run → exec on s = refusedOn .halted ∧ exec off s = refusedOff .halted) ∧
      (s.mrp.part = .run → s.enabled l = true → exec on s = refusedOn .badState) ∧
      (s.mrp.part = .run → s.enabled l = false → exec off s = refusedOff .badState) ∧
      (s.enabled l = false → exec again s = refusedAgain .badState) ∧
      (let own := [(s.laneEntry l).ps, (s.laneEntry l).fl, (s.laneEntry l).cn].filterMap id
       let p := pairOf l
       let brought := if s.pairEnabled p then [] else (s.pairEntry p).br.toList
       let held (a : Byte) := (∃ k, s.enabled k = true ∧
           ((s.laneEntry k).ps = some a ∨ (s.laneEntry k).fl = some a ∨ (s.laneEntry k).cn = some a)) ∨
         ∃ q, s.pairEnabled q = true ∧ (s.pairEntry q).br = some a
       let fit := own.length = 3 ∧ (s.pairEnabled p = true ∨ brought ≠ []) ∧ own.Nodup ∧ ∀ a ∈ own ++ brought, ¬ held a
       (s.mrp.part = .run → s.enabled l = false → ¬ fit → exec on s = refusedOn .badValue) ∧
       (s.mrp.part = .run → s.enabled l = false → fit → ∃ t, exec on s = .next t ∧
        Answered on tag 8 .ok [1, BitVec.ofNat 8 (t.machine l).state.code] s t ∧ full t ∧
        t.frr = { s.frr with lanes := s.frr.lanes.put l { s.laneEntry l with enabled := true } } ∧
        t.lli.probeMarks = s.lli.probeMarks.put l true ∧ (t.lli.console.at l).stale = true ∧
        (∀ q, q ≠ p → t.pair q = s.pair q) ∧ (s.pairEnabled p = true → t.brm = s.brm) ∧
        (s.pairEnabled p = false →
          t.pair p = { s.pair p with lift := decide ((s.pair p).rack < (s.pair p).capacity), timer := (t.pair p).timer }) ∧
        t = { takeHead on s with
          frr := t.frr, owed := t.owed, psv := t.psv, cdp := t.cdp, lli := t.lli, brm := t.brm
          dli := { t.dli with linkErrors := s.dli.linkErrors } })) ∧
      (let p := pairOf l
       let m := s.machine l
       let open' := (s.session l).state ≠ .closed
       let seats := ∃ k, (s.team k).any (fun x => x.home == l || x.seated == l) = true
       (s.mrp.part = .run → s.enabled l = true → open' ∨ seats → exec off s = refusedOff .inUse) ∧
       (s.mrp.part = .run → s.enabled l = true → ¬ open' → ¬ seats →
         m.state = .cycling ∨ m.state = .stopping ∨ m.state = .service → exec off s = refusedOff .badState) ∧
       (s.mrp.part = .run → s.enabled l = true → ¬ open' → ¬ seats →
         m.state = .off ∨ m.state = .ready ∨ m.state = .fault → ∃ t, exec off s = .next t ∧
        Answered off tag 9 .ok [0, 1] s t ∧ full t ∧
        t.frr = { s.frr with lanes := s.frr.lanes.put l { s.laneEntry l with enabled := false } } ∧
        t.machine l = { m with state := .off, deckValid := false, fault := none, stray := none, late := none } ∧
        t.lli.probeMarks = s.lli.probeMarks.put l false ∧ t.lli.console = s.lli.console.put l ⟨false, []⟩ ∧
        t.auto l = none ∧ t.backup l = none ∧ (∀ i, t.cdp.inject = some i → i.lane ≠ l) ∧
        t.sce = { s.sce with
          deliveries := s.sce.deliveries.put l none
          corrections := s.sce.corrections.put l none
          modes := s.sce.modes.put p .opened } ∧
        (∀ q, q ≠ p → t.pair q = s.pair q) ∧ (s.enabled (partner l) = true → t.brm = s.brm) ∧
        (s.enabled (partner l) = false → t.pair p = { s.pair p with lift := false, timer := none }) ∧
        (s.dli.notices.Nodup → .ofLane .machineFault l ∉ t.dli.notices) ∧
        t = { takeHead off s with
          frr := t.frr, owed := t.owed, psv := t.psv, cdp := t.cdp, sce := t.sce, lli := t.lli, brm := t.brm
          dli := { t.dli with linkErrors := s.dli.linkErrors } })) ∧
      (let game := (s.seatedTeam l).any fun x => x.2.inProgress
       s.enabled l = true → ∃ t : State,
        (let lost : Byte := if game then 1 else 0
         let waiting := s.mode (pairOf l) = .paired ∧ ∃ y, t.seatedTeam (partner l) = some y ∧ y.2.state = .waitingCross
         (¬ waiting → exec again s = .next (respond tag 10 .ok [lost, 0, 0] t)) ∧
         (∀ y, t.seatedTeam (partner l) = some y → waiting →
           exec again s = .next (respond tag 10 .ok [lost, 1, 1, BitVec.ofNat 8 (numberOf y.1)] (crossCheck y.1 t)))) ∧
        full t ∧
        (∀ k, t.delivery k = if k = l then none else s.delivery k) ∧
        (∀ k, t.correction k = if k = l then none else s.correction k) ∧
        (s.seatedTeam l = none → t.sce.teams = s.sce.teams ∧ t.blu = s.blu) ∧
        (∀ x, s.seatedTeam l = some x → (∀ j, j ≠ x.1 → t.team j = s.team j) ∧
          (x.2.inProgress = true → t.team x.1 = some { x.2 with
            roster := x.2.roster.map fun b => { b with frames := Table.fill 10 ⟨[], none, none, none⟩ }
            recent := none
            inProgress := false
            reservation := none
            state := .standby .reset }) ∧
          (x.2.inProgress = false → x.2.state = .waitingCross →
            t.team x.1 = some { x.2 with state := .standby .reset, reservation := none } ∧
            .ofLane .gameEnd l ∈ t.dli.notices) ∧
          (∀ r, x.2.state = .standby r → x.2.inProgress = false → t.team x.1 = some { x.2 with reservation := none }) ∧
          (∀ k, t.session k = if k = x.2.home ∧ x.2.inProgress = true ∧ s.perGame k = true
            then { s.session k with reserved := (s.session k).reserved - x.2.roster.length } else s.session k)) ∧
        t.auto l = none ∧ t.backup l = none ∧ (∀ i, t.cdp.inject = some i → i.lane ≠ l) ∧
        ((s.machine l).state = .cycling ∨ (s.machine l).state = .stopping → t.cdp.discardOnAbort.at l = true) ∧
        (t.lli.console.at l).stale = true ∧ t.sce.modes = s.sce.modes ∧
        t = { takeHead again s with
          owed := t.owed, psv := t.psv, cdp := t.cdp, sce := t.sce, lli := t.lli
          blu := { s.blu with sessions := t.blu.sessions }
          dli := { (takeHead again s).dli with notices := t.dli.notices } }))

/-! ### The centre halt -/

/-- The Halt Line: HALT_ALL drives it with cause DESK and another party's assertion is observed; in RUN either begins a halt, with HALT held on
every lane, every CYCLING lane stopped with a STOP marked unless one is set already (R16), every lift HALT, and the part HALTING,
or HALTED when no lane moves (R51, R192, R193). The last exit of a lane's cycle brings HALTING to HALTED (R194). The code of the
observed level in the response is the model's reading (log 15). -/
def Obligations.HaltsBeginAndComplete : Prop :=
  ∀ (tag : BitVec 16) (s : State),
    let c := Instr.haltAll tag
    let a := Instr.haltLineAssert
    let desk : HaltLine := ⟨true, true, some .desk, false, s.mrp.halt.others⟩
    let line : HaltLine := { s.mrp.halt with observed := true, others := true }
    let begun (h : HaltLine) (t : State) :=
      t.mrp = { s.mrp with halt := { h with resumeRequested := false }, part := if s.slotsInUse = 0 then .halted else .halting } ∧
      (∀ l,
        let m := s.machine l
        t.machine l = { m with
          holds := { m.holds with halt := true }
          state := if m.state = .cycling then .stopping else m.state
          timer := if m.state = .cycling then some s.mrp.params.cycleTimeout else m.timer } ∧
        (∀ f, m.inFlight = some f → m.state = .cycling → t.lli.stopMarks.at l = some ((s.lli.stopMarks.at l).getD f.tag)) ∧
        (m.state ≠ .cycling → t.lli.stopMarks.at l = s.lli.stopMarks.at l) ∧
        (m.holds.halt = false → .holdSetChange l ∈ t.owed ∧ .gateEvaluation l ∈ t.owed)) ∧
      (∀ p, t.pair p = { s.pair p with lift := false, timer := none } ∧
        t.lli.liftMarks.at p = (s.lli.liftMarks.at p || (s.pair p).lift)) ∧
      t.dli.notices = noticesRaised (.ofPart .partState) s.dli.notices
    let framed (t : State) := t = { s with
      owed := t.owed, psv := t.psv, brm := t.brm, mrp := t.mrp
      lli := { s.lli with stopMarks := t.lli.stopMarks, liftMarks := t.lli.liftMarks }
      dli := { t.dli with linkErrors := s.dli.linkErrors } }
    (s.responsesQueued < 8 →
      (s.mrp.part = .config → exec c s = .next (respond tag 11 .badState [] (takeHead c s))) ∧
      (s.mrp.part ≠ .config → s.mrp.part ≠ .run → exec c s = .next (respond tag 11 .ok
        [BitVec.ofNat 8 s.mrp.part.code, 1, 1] { takeHead c s with mrp := { s.mrp with halt := desk } })) ∧
      (s.mrp.part = .run → (∀ l, (s.machine l).state = .cycling → (s.machine l).inFlight ≠ none) → ∃ t, exec c s = .next t ∧
        Answered c tag 11 .ok [if s.slotsInUse = 0 then 3 else 2, 1, 1] s t ∧ begun desk t ∧ framed t)) ∧
    (s.mrp.part ≠ .run ∨ s.mrp.halt.observed = true →
      exec a s = .next { s with owed := s.owed.erase a, mrp := { s.mrp with halt := line } }) ∧
    (s.mrp.part = .run → s.mrp.halt.observed = false →
      (∀ l, (s.machine l).state = .cycling → (s.machine l).inFlight ≠ none) → ∃ t, exec a s = .next t ∧
      begun line t ∧ t.dli.tx = s.dli.tx ∧ t.dli.rx = s.dli.rx ∧ framed t) ∧
    (∀ l,
      let e := Instr.laneCycleExit l
      (s.mrp.part ≠ .halting ∨ s.slotsInUse ≠ 0 → exec e s = .next (s.without e)) ∧
      (s.mrp.part = .halting → s.slotsInUse = 0 → s.mrp.halt.observed = true ∨ s.mrp.halt.resumeRequested = false →
        exec e s = .next { s with
          owed := s.owed.erase e
          mrp := { s.mrp with part := .halted }
          dli := { s.dli with notices := noticesRaised (.ofPart .partState) s.dli.notices } }) ∧
      (s.mrp.part = .halting → s.slotsInUse = 0 → s.mrp.halt.observed = false → s.mrp.halt.resumeRequested = true →
        ∃ t, exec e s = .next t ∧ t.mrp.part = .run ∧ (∀ k, (t.holds k).halt = false)))

/-- RESUME_ALL: its table, then the drive ended, a resume requested and the line observed as the other parties leave it; it, and the release
of the line by the last other party, return a HALTED part to RUN once the line is released and a resume requested, with HALT
released on every lane and the lifts and timers evaluated (R195). The codes of the observed level in the responses are the model's
reading (log 15). -/
def Obligations.ThePartReturnsToRun : Prop :=
  ∀ (tag : BitVec 16) (s : State),
    let c := Instr.resumeAll tag
    let d := Instr.haltLineRelease
    let returned (t : State) :=
      t.mrp.part = .run ∧ t.mrp.halt.resumeRequested = false ∧ t.mrp.halt.observed = false ∧
      (∀ l, t.machine l = { s.machine l with holds := { s.holds l with halt := false } } ∧
        ((s.holds l).halt = true → .holdSetChange l ∈ t.owed ∧ .gateEvaluation l ∈ t.owed)) ∧
      (∀ p,
        let r := s.pair p
        let lift := s.pairEnabled p && decide (r.rack < r.capacity)
        t.pair p = { r with lift := lift, timer := (t.pair p).timer } ∧
        (lift = true → r.transit ≠ [] → r.oldestOverdue = false →
          (t.pair p).timer = some (r.timer.getD s.mrp.params.returnTimeout)) ∧
        (lift = false ∨ r.transit = [] ∨ r.oldestOverdue = true → (t.pair p).timer = none) ∧
        t.lli.liftMarks.at p = (s.lli.liftMarks.at p || lift != r.lift)) ∧
      t.dli.notices = noticesRaised (.ofPart .partState) s.dli.notices ∧
      t = { s with
        owed := t.owed, psv := t.psv, brm := t.brm
        mrp := { s.mrp with part := t.mrp.part, halt := t.mrp.halt }
        lli := { s.lli with liftMarks := t.lli.liftMarks }
        dli := { t.dli with linkErrors := s.dli.linkErrors } }
    (s.responsesQueued < 8 →
      (s.mrp.part = .config ∨ s.mrp.part = .run → exec c s = .next (respond tag 12 .badState [] (takeHead c s))) ∧
      (s.mrp.part = .halting ∨ (s.mrp.part = .halted ∧ s.mrp.halt.others = true) → exec c s = .next (respond tag 12 .ok
        [BitVec.ofNat 8 s.mrp.part.code, if s.mrp.halt.others then 1 else 2, 1]
        { takeHead c s with mrp := { s.mrp with
          halt := ⟨s.mrp.halt.others, false, none, true, s.mrp.halt.others⟩ } })) ∧
      (s.mrp.part = .halted → s.mrp.halt.others = false → ∃ t, exec c s = .next t ∧
        Answered c tag 12 .ok [1, 2, 0] s t ∧ t.mrp.halt.drive = false ∧ t.mrp.halt.cause = none ∧ returned t)) ∧
    (s.mrp.part ≠ .halted ∨ s.mrp.halt.drive = true ∨ s.mrp.halt.resumeRequested = false → exec d s = .next { s with
      owed := s.owed.erase d
      mrp := { s.mrp with halt := { s.mrp.halt with observed := s.mrp.halt.drive, others := false } } }) ∧
    (s.mrp.part = .halted → s.mrp.halt.drive = false → s.mrp.halt.resumeRequested = true → ∃ t, exec d s = .next t ∧
      t.mrp.halt.others = false ∧ t.dli.tx = s.dli.tx ∧ t.dli.rx = s.dli.rx ∧ returned t)

/-- The reading requests: each is answered OK with the fields its rule names, or refused by its table, and changes nothing but the desk
queues; only a running cost that does not fit 48 bits draws a free value (R94, R148, R153, R169, R183, R191; log 11, log 16). The
order of the fault causes and the tariff that a CLOSED record shows are the model's choice (log 28); the codes of the observed level,
the drive cause, the tariff's basis and the team state, EMPTY among them, are its reading (log 15). -/
def Obligations.ReadsChangeNothing : Prop :=
  ∀ (tag : BitVec 16) (a b : Byte) (s : State), s.responsesQueued < 8 →
    let reads (c : Instr) (code : Nat) (fields : List Byte) := exec c s = .next (respond tag code .ok fields (takeHead c s))
    let refused (c : Instr) (code : Nat) (r : Result) := exec c s = .next (respond tag code r [] (takeHead c s))
    let opt (f : Nat → List Byte) (x : Option Nat) := match x with
      | none => [0]
      | some n => 1 :: f n
    reads (.status tag) 1 ([BitVec.ofNat 8 s.mrp.part.code, if s.mrp.halt.observed then 1 else 2] ++
      yesNo s.mrp.halt.drive ++ optBytes DriveCause.bytes s.mrp.halt.cause ++ yesNo s.mrp.halt.resumeRequested ++
      clockBytes s.mrp.clock ++ yesNo s.mrp.clockSet ++ u8 s.slotsInUse ++ u8 s.mrp.params.slotBudget ++
      u8 s.cdp.batch.length ++ u16 s.blu.log.length ++ u16 (takeHead (.status tag) s).dli.notices.length) ∧
    reads (.paramRead tag) 4 ([BitVec.ofNat 8 s.mrp.params.slotBudget] ++ s.mrp.params.ranks.flatMap (fun c => u8 c.code) ++
      u8 s.mrp.params.batchLow ++ u8 s.mrp.params.cycleTimeout ++ u8 s.mrp.params.returnTimeout ++
      u16 s.mrp.params.logHigh ++ yesNo s.mrp.params.safetyHalts) ∧
    (laneOf a.toNat = none → refused (.laneStatus tag a) 2 .badValue ∧ refused (.sessionRead tag a) 69 .badValue) ∧
    (∀ l, laneOf a.toNat = some l →
      let m := s.machine l
      let x := s.session l
      reads (.laneStatus tag a) 2 (yesNo (s.enabled l) ++ u8 m.state.code ++ yesNo m.serviceRequested ++ pinBytes m.deck ++
        yesNo m.deckValid ++ optBytes Cycle.bytes m.inFlight ++ optBytes FaultRecord.bytes m.fault ++ [m.holds.byte] ++
        optBytes AutoRequest.bytes (s.auto l) ++ optBytes Backup.bytes (s.backup l) ++
        yesNo (s.cdp.inject.any fun i => i.lane == l) ++ deliveryBytes (s.delivery l) ++
        optBytes (fun y : Slot × Team => u8 (numberOf y.1) ++ u8 y.2.state.code) (s.seatedTeam l) ++
        u8 x.state.code ++ u8 (s.mode (pairOf l)).code) ∧
      (let fields := x.bytes ++ optBytes (fun t : Tariff => u8 (if t.timed.isSome then 2 else 1)) (s.sessionTariff l) ++
         optBytes (fun t : Tariff => u8 (t.bandAt s.mrp.clock)) (s.sessionTariff l)
       (s.terms l = none → reads (.sessionRead tag a) 69 (fields ++ [0])) ∧
       (s.terms l ≠ none → x.accrued.toNat + x.segAmount < 2 ^ 48 →
        reads (.sessionRead tag a) 69 (fields ++ (1 :: moneyBytes (x.accrued.toNat + x.segAmount)))) ∧
       (s.terms l ≠ none → 2 ^ 48 ≤ x.accrued.toNat + x.segAmount → x.segAmount < 2 ^ 48 → ∃ t,
        exec (.sessionRead tag a) s = .next t ∧
        t = { takeHead (.sessionRead tag a) s with
          draws := s.draws + 1
          dli := { t.dli with notices := s.dli.notices, linkErrors := s.dli.linkErrors } }))) ∧
    (pairNumbered a.toNat = none → refused (.pairStatus tag a) 59 .badValue) ∧
    (∀ p, pairNumbered a.toNat = some p →
      let r := s.pair p
      reads (.pairStatus tag a) 59 (listBytes Transit.bytes r.transit ++ yesNo r.oldestOverdue ++ u8 r.rack ++
        u8 r.capacity ++ u8 r.almostFull ++ signedByte ((r.capacity : Int) - r.rack - r.transit.length) ++ yesNo r.lift ++
        opt u8 r.timer ++ r.causes.bytes ++ u8 r.unmatchedArrivals ++ u8 r.unmatchedTakes ++
        yesNo (s.holds (oddLane p)).pair ++ yesNo (s.pairEnabled p))) ∧
    (15 < a.toNat → refused (.tariffRead tag a) 65 .badValue) ∧
    (∀ i, tariffOf a.toNat = some i → reads (.tariffRead tag a) 65 (optBytes Tariff.bytes (s.tariff i) ++
      opt u8 ((s.tariff i).map fun t => t.bandAt s.mrp.clock) ++ u8 (s.tariffUsers i))) ∧
    (s.mrp.part = .config → refused (.teamRead tag a b) 43 .badState) ∧
    (s.mrp.part ≠ .config → slotOf a.toNat = none ∨ 6 < b.toNat → refused (.teamRead tag a b) 43 .badValue) ∧
    (∀ k, slotOf a.toNat = some k → s.mrp.part ≠ .config → b.toNat ≤ 6 →
      (s.team k = none → reads (.teamRead tag a b) 43 [1]) ∧
      (∀ t, s.team k = some t →
        (t.roster.length < b.toNat → refused (.teamRead tag a b) 43 .badValue) ∧
        (b = 0 → reads (.teamRead tag a b) 43 t.headerBytes) ∧
        (∀ x, t.roster[b.toNat - 1]? = some x → 1 ≤ b.toNat →
          reads (.teamRead tag a b) 43 (t.headerBytes ++ x.bytes))))

/-! ### Requests on the wire -/

/-- Encoding and decoding of requests agree: the payload that carries a well-formed management request is read back as that request with
every field, and the frame that brings it is taken as that request. -/
def Obligations.RequestsReadBackFromTheirPayload : Prop :=
  ∀ (i : Instr) (payload : List Byte), i.wellFormed = true → requestPayload i = some payload →
    requestOfPayload payload = i ∧ commandOfFrame ⟨0, 2, payload⟩ = i

/-! ### Invariants -/

/-- The queues and lists keep their bounds (R12, R13, R15, R19, R58), the pending notice list holds no entry twice (R20), the clock and the
parameters stay in their ranges (R183, R184), and the observed level of the Halt Line is asserted exactly while someone drives it
(R192). Each is kept by every step, whatever else holds. -/
def Obligations.BoundsAndRangesAreKept : Prop :=
  ∀ s t : State, step s = .next t →
    (QueuesBounded s → QueuesBounded t) ∧ (NoticesDistinct s → NoticesDistinct t) ∧ (BatchBounded s → BatchBounded t) ∧
    (ClockInRange s → ClockInRange t) ∧ (ParamsInRange s → ParamsInRange t) ∧ (HaltConsistent s → HaltConsistent t)

/-- A machine's records match its state (R27), the lanes that move stay within the slot budget (R52), a disabled lane's machine and every
machine in CONFIG is OFF (R46, R47), and HALT, PAIR and CREDIT are held exactly while their reasons hold (R51, R144, R162). Each is
kept by every step, whatever else holds. -/
def Obligations.MachinesAndHoldsStayConsistent : Prop :=
  ∀ s t : State, step s = .next t →
    (MachinesConsistent s → MachinesConsistent t) ∧ (SlotsWithinBudget s → SlotsWithinBudget t) ∧
    (DisabledOff s → DisabledOff t) ∧ (HoldsFollow s → HoldsFollow t)

/-- A pair record keeps its bounds, its lift is RUN exactly under the three conditions and its overdue timer runs exactly under its three
(R133, R136, R139, R140, R147); no lane seats two teams (R88) and a team is seated on its home lane's pair (R91, R115). Each is
kept by every step, whatever else holds. -/
def Obligations.PairsAndSeatingStayConsistent : Prop :=
  ∀ s t : State, step s = .next t →
    (PairsConsistent s → PairsConsistent t) ∧ (SeatingDistinct s → SeatingDistinct t) ∧
    (SeatedAtHomePair s → SeatedAtHomePair t)

/-- Credit stays within its limit and covers the reserved bowler-games (R154), LOGFULL is held exactly while a record is owed (R174), and
the charge log holds at most 256 records with consecutive sequence numbers and the fetch position among them (R172). Each is kept
by every step, whatever else holds. -/
def Obligations.CreditAndTheChargeLogStayConsistent : Prop :=
  ∀ s t : State, step s = .next t →
    (CreditsCover s → CreditsCover t) ∧ (OwedHeld s → OwedHeld t) ∧ (LogConsistent s → LogConsistent t)

/-- The state after reset meets every one of the invariants. -/
def Obligations.TheInvariantsHoldAtReset : Prop :=
  QueuesBounded State.reset ∧ NoticesDistinct State.reset ∧ BatchBounded State.reset ∧ ClockInRange State.reset ∧
  ParamsInRange State.reset ∧ HaltConsistent State.reset ∧ MachinesConsistent State.reset ∧
  SlotsWithinBudget State.reset ∧ DisabledOff State.reset ∧ HoldsFollow State.reset ∧ PairsConsistent State.reset ∧
  SeatingDistinct State.reset ∧ SeatedAtHomePair State.reset ∧ CreditsCover State.reset ∧ OwedHeld State.reset ∧
  LogConsistent State.reset
end

