-- ==== Sys2Proof/Laws/Lists.lean ====
section
/-! SUPPORT. Laws/Lists.lean: what an operation done for every lane or every pair leaves, and how an update of one lane's machine changes the slots in use. -/

namespace Sys2Proof.Laws

open Sys2Proof.Machine

/-- A place written twice holds what was written last. -/
@[simp] theorem put_put {n : Nat} {α : Type} (t : Table n α) (i : Fin n) (x y : α) : (t.put i x).put i y = t.put i y := by
  simp [Table.put]

/-- A place given what it holds leaves the table as it stands. -/
@[simp] theorem put_at {n : Nat} {α : Type} (t : Table n α) (i : Fin n) : t.put i (t.at i) = t := by
  simp [Table.put, Table.at, Vector.get_eq_getElem]

/-- In a list that a rank sorts and that holds every element, the first answer is that of the element of least rank that has one. -/
theorem findSome_first {α β : Type} (rank : α → Nat) (xs : List α) (sorted : xs.Pairwise fun a b => rank a < rank b)
    (all : ∀ a, a ∈ xs) (f : α → Option β) (b : β) :
    xs.findSome? f = some b ↔ ∃ i, f i = some b ∧ ∀ j, rank j < rank i → f j = none := by
  have earlier : ∀ {l1 l2 : List α} {a j : α}, xs = l1 ++ a :: l2 → rank j < rank a → j ∈ l1 := by
    intro l1 l2 a j e hj
    rw [e] at sorted
    rcases List.mem_append.1 (e ▸ all j) with h | h
    · exact h
    · rcases List.mem_cons.1 h with rfl | h
      · omega
      · have := (List.pairwise_cons.1 (List.pairwise_append.1 sorted).2.1).1 j h
        omega
  constructor
  · intro h
    obtain ⟨l1, a, l2, e, ha, hn⟩ := List.findSome?_eq_some_iff.1 h
    exact ⟨a, ha, fun j hj => hn j (earlier e hj)⟩
  · rintro ⟨i, hi, hn⟩
    cases h : xs.findSome? f with
    | none => simp [List.findSome?_eq_none_iff.1 h i (all i)] at hi
    | some c =>
      obtain ⟨l1, a, l2, e, ha, before⟩ := List.findSome?_eq_some_iff.1 h
      rcases Nat.lt_trichotomy (rank i) (rank a) with lt | eq | lt
      · simp [before i (earlier e lt)] at hi
      · rcases List.mem_append.1 (e ▸ all i) with m | m
        · simp [before i m] at hi
        · rcases List.mem_cons.1 m with rfl | m
          · rw [← ha, hi]
          · have := (List.pairwise_cons.1 (List.pairwise_append.1 (e ▸ sorted)).2.1).1 i m
            omega
      · simp [hn a lt] at ha

/-- What each visit keeps, a fold over a list keeps. -/
theorem foldl_keeps {α : Type} (P : State → Prop) (f : α → State → State) (step : ∀ a t, P t → P (f a t)) :
    ∀ (xs : List α) (s : State), P s → P (xs.foldl (fun s a => f a s) s)
  | [], _, h => h
  | a :: xs, s, h => foldl_keeps P f step xs (f a s) (step a s h)

/-- What each lane's visit keeps, the operation for every lane keeps. -/
theorem forLanes_keeps (P : State → Prop) (f : Lane → State → State) (step : ∀ l t, P t → P (f l t)) (s : State)
    (h : P s) : P (forLanes f s) := foldl_keeps P f step allLanes s h

/-- What each pair's visit keeps, the operation for every pair keeps. -/
theorem forPairs_keeps (P : State → Prop) (f : Pair → State → State) (step : ∀ p t, P t → P (f p t)) (s : State)
    (h : P s) : P (forPairs f s) := foldl_keeps P f step allPairs s h

/-- In a fold over a list without repetition whose visits change only their own reading, an element's reading is what its one
visit leaves, made at a state in which the reading is still the first one and in which what all visits keep holds. -/
theorem foldl_visits {α β : Type} (P : State → Prop) (r : α → State → β) (f : α → State → State)
    (keep : ∀ a t, P t → P (f a t)) (own : ∀ a b t, P t → b ≠ a → r b (f a t) = r b t) (a : α) :
    ∀ (xs : List α) (s : State), P s → xs.Nodup → a ∈ xs →
      ∃ t, P t ∧ r a t = r a s ∧ r a (xs.foldl (fun s a => f a s) s) = r a (f a t)
  | [], _, _, _, h => by simp at h
  | b :: xs, s, hs, hn, h => by
    obtain ⟨hb, hx⟩ := List.nodup_cons.mp hn
    rcases List.mem_cons.mp h with rfl | h
    · refine ⟨s, hs, rfl, ?_⟩
      have stay : ∀ (ys : List α) (t : State), P t → a ∉ ys → r a (ys.foldl (fun s a => f a s) t) = r a t := by
        intro ys
        induction ys with
        | nil => intro t _ _; rfl
        | cons y ys ih =>
          intro t ht hy
          have ne : a ≠ y := fun e => hy (e ▸ List.mem_cons_self)
          rw [List.foldl_cons, ih _ (keep y t ht) (fun m => hy (List.mem_cons_of_mem _ m)), own y a t ht ne]
      exact stay xs _ (keep a s hs) hb
    · have ne : a ≠ b := fun e => hb (e ▸ h)
      obtain ⟨t, ht, h1, h2⟩ := foldl_visits P r f keep own a xs (f b s) (keep b s hs) hx h
      exact ⟨t, ht, h1.trans (own b a s hs ne), h2⟩

/-- An operation for every lane whose visits change only their own lane's reading leaves in each lane's reading what that lane's
visit leaves. -/
theorem forLanes_visits {β : Type} (P : State → Prop) (r : Lane → State → β) (f : Lane → State → State)
    (keep : ∀ l t, P t → P (f l t)) (own : ∀ l k t, P t → k ≠ l → r k (f l t) = r k t) (l : Lane) (s : State) (h : P s) :
    ∃ t, P t ∧ r l t = r l s ∧ r l (forLanes f s) = r l (f l t) :=
  foldl_visits P r f keep own l allLanes s h (List.nodup_finRange 32) (mem_allLanes l)

/-- The same of an operation for every pair. -/
theorem forPairs_visits {β : Type} (P : State → Prop) (r : Pair → State → β) (f : Pair → State → State)
    (keep : ∀ p t, P t → P (f p t)) (own : ∀ p q t, P t → q ≠ p → r q (f p t) = r q t) (p : Pair) (s : State) (h : P s) :
    ∃ t, P t ∧ r p t = r p s ∧ r p (forPairs f s) = r p (f p t) :=
  foldl_visits P r f keep own p allPairs s h (List.nodup_finRange 16) (mem_allPairs p)

/-- Counting after one place of a list without repetition has been given another answer. -/
theorem countP_update {α : Type} [DecidableEq α] (p q : α → Bool) (a : α) (same : ∀ b, b ≠ a → q b = p b) :
    ∀ xs : List α, xs.Nodup → a ∈ xs → xs.countP q + (if p a then 1 else 0) = xs.countP p + (if q a then 1 else 0)
  | [], _, h => by simp at h
  | b :: xs, hn, h => by
    obtain ⟨hb, hx⟩ := List.nodup_cons.mp hn
    rcases List.mem_cons.mp h with rfl | h
    · have rest : xs.countP q = xs.countP p := by
        apply List.countP_congr
        intro c hc
        rw [same c (fun e => hb (e ▸ hc))]
      simp only [List.countP_cons, rest]
      omega
    · have ne : b ≠ a := fun e => hb (e ▸ h)
      have ih := countP_update p q a same xs hx h
      simp only [List.countP_cons, same b ne]
      omega

/-- The slots in use after one lane's machine record has been replaced. -/
theorem slotsInUse_put (l : Lane) (m : LaneMachine) (s t : State) (h : t.psv = s.psv.put l m) :
    t.slotsInUse + (if (s.machine l).state.moving then 1 else 0) =
      s.slotsInUse + (if m.state.moving then 1 else 0) := by
  have here : t.machine l = m := by simp [State.machine, h]
  have there : ∀ k, k ≠ l → t.machine k = s.machine k := fun k hk => by simp [State.machine, h, hk]
  have := countP_update (fun k => (s.machine k).state.moving) (fun k => (t.machine k).state.moving) l
    (fun k hk => by rw [there k hk]) allLanes (List.nodup_finRange 32) (mem_allLanes l)
  simpa [State.slotsInUse, here] using this

end Sys2Proof.Laws
end

