-- ==== Sys2Proof/Laws/State.lean ====
section
/-! SUPPORT. Laws/State.lean: what each update of the state does to each block of it, true by definition and tagged for simp, and what the readers of the state read after an update. -/

namespace Sys2Proof.Laws

open Sys2Proof.Machine

/-! ### Every update, block by block -/

@[simp] theorem oweAll_owed (cs : List Instr) (s : State) : (oweAll cs s).owed = s.owed ++ cs := rfl

@[simp] theorem oweAll_keeps (cs : List Instr) (s : State) :
    (oweAll cs s).lli = s.lli ∧ (oweAll cs s).dli = s.dli ∧ (oweAll cs s).frr = s.frr ∧ (oweAll cs s).psv = s.psv ∧
    (oweAll cs s).cdp = s.cdp ∧ (oweAll cs s).sce = s.sce ∧ (oweAll cs s).brm = s.brm ∧ (oweAll cs s).blu = s.blu ∧
    (oweAll cs s).mrp = s.mrp ∧ (oweAll cs s).pending = s.pending ∧ (oweAll cs s).draws = s.draws :=
  ⟨rfl, rfl, rfl, rfl, rfl, rfl, rfl, rfl, rfl, rfl, rfl⟩

@[simp] theorem owe_owed (c : Instr) (s : State) : (owe c s).owed = s.owed ++ [c] := rfl

@[simp] theorem owe_keeps (c : Instr) (s : State) :
    (owe c s).lli = s.lli ∧ (owe c s).dli = s.dli ∧ (owe c s).frr = s.frr ∧ (owe c s).psv = s.psv ∧
    (owe c s).cdp = s.cdp ∧ (owe c s).sce = s.sce ∧ (owe c s).brm = s.brm ∧ (owe c s).blu = s.blu ∧
    (owe c s).mrp = s.mrp ∧ (owe c s).pending = s.pending ∧ (owe c s).draws = s.draws :=
  ⟨rfl, rfl, rfl, rfl, rfl, rfl, rfl, rfl, rfl, rfl, rfl⟩

@[simp] theorem take_owed (c : Instr) (s : State) : (take c s).owed = s.owed.erase c := rfl

@[simp] theorem take_keeps (c : Instr) (s : State) :
    (take c s).lli = s.lli ∧ (take c s).dli = s.dli ∧ (take c s).frr = s.frr ∧ (take c s).psv = s.psv ∧
    (take c s).cdp = s.cdp ∧ (take c s).sce = s.sce ∧ (take c s).brm = s.brm ∧ (take c s).blu = s.blu ∧
    (take c s).mrp = s.mrp ∧ (take c s).pending = s.pending ∧ (take c s).draws = s.draws :=
  ⟨rfl, rfl, rfl, rfl, rfl, rfl, rfl, rfl, rfl, rfl, rfl⟩

@[simp] theorem raise_dli (n : Notice) (s : State) : (raise n s).dli = { s.dli with notices := noticesRaised n s.dli.notices } := rfl

@[simp] theorem raise_keeps (n : Notice) (s : State) :
    (raise n s).lli = s.lli ∧ (raise n s).frr = s.frr ∧ (raise n s).psv = s.psv ∧ (raise n s).cdp = s.cdp ∧
    (raise n s).sce = s.sce ∧ (raise n s).brm = s.brm ∧ (raise n s).blu = s.blu ∧ (raise n s).mrp = s.mrp ∧
    (raise n s).owed = s.owed ∧ (raise n s).pending = s.pending ∧ (raise n s).draws = s.draws :=
  ⟨rfl, rfl, rfl, rfl, rfl, rfl, rfl, rfl, rfl, rfl, rfl⟩

@[simp] theorem withdraw_dli (n : Notice) (s : State) : (withdraw n s).dli = { s.dli with notices := s.dli.notices.erase n } := rfl

@[simp] theorem withdraw_keeps (n : Notice) (s : State) :
    (withdraw n s).lli = s.lli ∧ (withdraw n s).frr = s.frr ∧ (withdraw n s).psv = s.psv ∧ (withdraw n s).cdp = s.cdp ∧
    (withdraw n s).sce = s.sce ∧ (withdraw n s).brm = s.brm ∧ (withdraw n s).blu = s.blu ∧ (withdraw n s).mrp = s.mrp ∧
    (withdraw n s).owed = s.owed ∧ (withdraw n s).pending = s.pending ∧ (withdraw n s).draws = s.draws :=
  ⟨rfl, rfl, rfl, rfl, rfl, rfl, rfl, rfl, rfl, rfl, rfl⟩

@[simp] theorem raiseLane_dli (k : LaneNoticeKind) (l : Lane) (s : State) : (raiseLane k l s).dli = { s.dli with notices := noticesRaised (.ofLane k l) s.dli.notices } := rfl

@[simp] theorem raiseLane_keeps (k : LaneNoticeKind) (l : Lane) (s : State) :
    (raiseLane k l s).lli = s.lli ∧ (raiseLane k l s).frr = s.frr ∧ (raiseLane k l s).psv = s.psv ∧ (raiseLane k l s).cdp = s.cdp ∧
    (raiseLane k l s).sce = s.sce ∧ (raiseLane k l s).brm = s.brm ∧ (raiseLane k l s).blu = s.blu ∧ (raiseLane k l s).mrp = s.mrp ∧
    (raiseLane k l s).owed = s.owed ∧ (raiseLane k l s).pending = s.pending ∧ (raiseLane k l s).draws = s.draws :=
  ⟨rfl, rfl, rfl, rfl, rfl, rfl, rfl, rfl, rfl, rfl, rfl⟩

@[simp] theorem raisePair_dli (k : PairNoticeKind) (p : Pair) (s : State) : (raisePair k p s).dli = { s.dli with notices := noticesRaised (.ofPair k p) s.dli.notices } := rfl

@[simp] theorem raisePair_keeps (k : PairNoticeKind) (p : Pair) (s : State) :
    (raisePair k p s).lli = s.lli ∧ (raisePair k p s).frr = s.frr ∧ (raisePair k p s).psv = s.psv ∧ (raisePair k p s).cdp = s.cdp ∧
    (raisePair k p s).sce = s.sce ∧ (raisePair k p s).brm = s.brm ∧ (raisePair k p s).blu = s.blu ∧ (raisePair k p s).mrp = s.mrp ∧
    (raisePair k p s).owed = s.owed ∧ (raisePair k p s).pending = s.pending ∧ (raisePair k p s).draws = s.draws :=
  ⟨rfl, rfl, rfl, rfl, rfl, rfl, rfl, rfl, rfl, rfl, rfl⟩

@[simp] theorem raisePart_dli (k : PartNoticeKind) (s : State) : (raisePart k s).dli = { s.dli with notices := noticesRaised (.ofPart k) s.dli.notices } := rfl

@[simp] theorem raisePart_keeps (k : PartNoticeKind) (s : State) :
    (raisePart k s).lli = s.lli ∧ (raisePart k s).frr = s.frr ∧ (raisePart k s).psv = s.psv ∧ (raisePart k s).cdp = s.cdp ∧
    (raisePart k s).sce = s.sce ∧ (raisePart k s).brm = s.brm ∧ (raisePart k s).blu = s.blu ∧ (raisePart k s).mrp = s.mrp ∧
    (raisePart k s).owed = s.owed ∧ (raisePart k s).pending = s.pending ∧ (raisePart k s).draws = s.draws :=
  ⟨rfl, rfl, rfl, rfl, rfl, rfl, rfl, rfl, rfl, rfl, rfl⟩

@[simp] theorem withdrawLane_dli (k : LaneNoticeKind) (l : Lane) (s : State) : (withdrawLane k l s).dli = { s.dli with notices := s.dli.notices.erase (.ofLane k l) } := rfl

@[simp] theorem withdrawLane_keeps (k : LaneNoticeKind) (l : Lane) (s : State) :
    (withdrawLane k l s).lli = s.lli ∧ (withdrawLane k l s).frr = s.frr ∧ (withdrawLane k l s).psv = s.psv ∧ (withdrawLane k l s).cdp = s.cdp ∧
    (withdrawLane k l s).sce = s.sce ∧ (withdrawLane k l s).brm = s.brm ∧ (withdrawLane k l s).blu = s.blu ∧ (withdrawLane k l s).mrp = s.mrp ∧
    (withdrawLane k l s).owed = s.owed ∧ (withdrawLane k l s).pending = s.pending ∧ (withdrawLane k l s).draws = s.draws :=
  ⟨rfl, rfl, rfl, rfl, rfl, rfl, rfl, rfl, rfl, rfl, rfl⟩

@[simp] theorem withdrawPair_dli (k : PairNoticeKind) (p : Pair) (s : State) : (withdrawPair k p s).dli = { s.dli with notices := s.dli.notices.erase (.ofPair k p) } := rfl

@[simp] theorem withdrawPair_keeps (k : PairNoticeKind) (p : Pair) (s : State) :
    (withdrawPair k p s).lli = s.lli ∧ (withdrawPair k p s).frr = s.frr ∧ (withdrawPair k p s).psv = s.psv ∧ (withdrawPair k p s).cdp = s.cdp ∧
    (withdrawPair k p s).sce = s.sce ∧ (withdrawPair k p s).brm = s.brm ∧ (withdrawPair k p s).blu = s.blu ∧ (withdrawPair k p s).mrp = s.mrp ∧
    (withdrawPair k p s).owed = s.owed ∧ (withdrawPair k p s).pending = s.pending ∧ (withdrawPair k p s).draws = s.draws :=
  ⟨rfl, rfl, rfl, rfl, rfl, rfl, rfl, rfl, rfl, rfl, rfl⟩

@[simp] theorem withdrawPart_dli (k : PartNoticeKind) (s : State) : (withdrawPart k s).dli = { s.dli with notices := s.dli.notices.erase (.ofPart k) } := rfl

@[simp] theorem withdrawPart_keeps (k : PartNoticeKind) (s : State) :
    (withdrawPart k s).lli = s.lli ∧ (withdrawPart k s).frr = s.frr ∧ (withdrawPart k s).psv = s.psv ∧ (withdrawPart k s).cdp = s.cdp ∧
    (withdrawPart k s).sce = s.sce ∧ (withdrawPart k s).brm = s.brm ∧ (withdrawPart k s).blu = s.blu ∧ (withdrawPart k s).mrp = s.mrp ∧
    (withdrawPart k s).owed = s.owed ∧ (withdrawPart k s).pending = s.pending ∧ (withdrawPart k s).draws = s.draws :=
  ⟨rfl, rfl, rfl, rfl, rfl, rfl, rfl, rfl, rfl, rfl, rfl⟩

@[simp] theorem linkError_dli (e : LinkError) (s : State) : (linkError e s).dli = { s.dli with linkErrors := s.dli.linkErrors.add e, notices := noticesRaised (.ofPart .linkError) s.dli.notices } := rfl

@[simp] theorem linkError_keeps (e : LinkError) (s : State) :
    (linkError e s).lli = s.lli ∧ (linkError e s).frr = s.frr ∧ (linkError e s).psv = s.psv ∧ (linkError e s).cdp = s.cdp ∧
    (linkError e s).sce = s.sce ∧ (linkError e s).brm = s.brm ∧ (linkError e s).blu = s.blu ∧ (linkError e s).mrp = s.mrp ∧
    (linkError e s).owed = s.owed ∧ (linkError e s).pending = s.pending ∧ (linkError e s).draws = s.draws :=
  ⟨rfl, rfl, rfl, rfl, rfl, rfl, rfl, rfl, rfl, rfl, rfl⟩

@[simp] theorem setNotices_dli (ns : List Notice) (s : State) : (setNotices ns s).dli = { s.dli with notices := ns } := rfl

@[simp] theorem setNotices_keeps (ns : List Notice) (s : State) :
    (setNotices ns s).lli = s.lli ∧ (setNotices ns s).frr = s.frr ∧ (setNotices ns s).psv = s.psv ∧ (setNotices ns s).cdp = s.cdp ∧
    (setNotices ns s).sce = s.sce ∧ (setNotices ns s).brm = s.brm ∧ (setNotices ns s).blu = s.blu ∧ (setNotices ns s).mrp = s.mrp ∧
    (setNotices ns s).owed = s.owed ∧ (setNotices ns s).pending = s.pending ∧ (setNotices ns s).draws = s.draws :=
  ⟨rfl, rfl, rfl, rfl, rfl, rfl, rfl, rfl, rfl, rfl, rfl⟩

@[simp] theorem placeDesk_dli (f : DeskFrame) (s : State) : (placeDesk f s).dli = { s.dli with tx := s.dli.tx ++ [f] } := rfl

@[simp] theorem placeDesk_keeps (f : DeskFrame) (s : State) :
    (placeDesk f s).lli = s.lli ∧ (placeDesk f s).frr = s.frr ∧ (placeDesk f s).psv = s.psv ∧ (placeDesk f s).cdp = s.cdp ∧
    (placeDesk f s).sce = s.sce ∧ (placeDesk f s).brm = s.brm ∧ (placeDesk f s).blu = s.blu ∧ (placeDesk f s).mrp = s.mrp ∧
    (placeDesk f s).owed = s.owed ∧ (placeDesk f s).pending = s.pending ∧ (placeDesk f s).draws = s.draws :=
  ⟨rfl, rfl, rfl, rfl, rfl, rfl, rfl, rfl, rfl, rfl, rfl⟩

@[simp] theorem deskFrameSentEffect_dli (s : State) : (deskFrameSentEffect s).dli = { s.dli with tx := s.dli.tx.tail } := rfl

@[simp] theorem deskFrameSentEffect_keeps (s : State) :
    (deskFrameSentEffect s).lli = s.lli ∧ (deskFrameSentEffect s).frr = s.frr ∧ (deskFrameSentEffect s).psv = s.psv ∧ (deskFrameSentEffect s).cdp = s.cdp ∧
    (deskFrameSentEffect s).sce = s.sce ∧ (deskFrameSentEffect s).brm = s.brm ∧ (deskFrameSentEffect s).blu = s.blu ∧ (deskFrameSentEffect s).mrp = s.mrp ∧
    (deskFrameSentEffect s).owed = s.owed ∧ (deskFrameSentEffect s).pending = s.pending ∧ (deskFrameSentEffect s).draws = s.draws :=
  ⟨rfl, rfl, rfl, rfl, rfl, rfl, rfl, rfl, rfl, rfl, rfl⟩

@[simp] theorem respond_dli (tag : BitVec 16) (code : Nat) (r : Result) (fields : List Byte) (s : State) : (respond tag code r fields s).dli = { s.dli with tx := s.dli.tx ++ [responseFrame tag code r.code s.part fields] } := rfl

@[simp] theorem respond_keeps (tag : BitVec 16) (code : Nat) (r : Result) (fields : List Byte) (s : State) :
    (respond tag code r fields s).lli = s.lli ∧ (respond tag code r fields s).frr = s.frr ∧ (respond tag code r fields s).psv = s.psv ∧ (respond tag code r fields s).cdp = s.cdp ∧
    (respond tag code r fields s).sce = s.sce ∧ (respond tag code r fields s).brm = s.brm ∧ (respond tag code r fields s).blu = s.blu ∧ (respond tag code r fields s).mrp = s.mrp ∧
    (respond tag code r fields s).owed = s.owed ∧ (respond tag code r fields s).pending = s.pending ∧ (respond tag code r fields s).draws = s.draws :=
  ⟨rfl, rfl, rfl, rfl, rfl, rfl, rfl, rfl, rfl, rfl, rfl⟩

@[simp] theorem setLink_lli (x : LaneLink) (s : State) : (setLink x s).lli = x := rfl

@[simp] theorem setLink_keeps (x : LaneLink) (s : State) :
    (setLink x s).dli = s.dli ∧ (setLink x s).frr = s.frr ∧ (setLink x s).psv = s.psv ∧ (setLink x s).cdp = s.cdp ∧
    (setLink x s).sce = s.sce ∧ (setLink x s).brm = s.brm ∧ (setLink x s).blu = s.blu ∧ (setLink x s).mrp = s.mrp ∧
    (setLink x s).owed = s.owed ∧ (setLink x s).pending = s.pending ∧ (setLink x s).draws = s.draws :=
  ⟨rfl, rfl, rfl, rfl, rfl, rfl, rfl, rfl, rfl, rfl, rfl⟩

@[simp] theorem markStop_lli (l : Lane) (tag : Byte) (s : State) : (markStop l tag s).lli = { s.lli with stopMarks := s.lli.stopMarks.put l (some ((s.lli.stopMarks.at l).getD tag)) } := rfl

@[simp] theorem markStop_keeps (l : Lane) (tag : Byte) (s : State) :
    (markStop l tag s).dli = s.dli ∧ (markStop l tag s).frr = s.frr ∧ (markStop l tag s).psv = s.psv ∧ (markStop l tag s).cdp = s.cdp ∧
    (markStop l tag s).sce = s.sce ∧ (markStop l tag s).brm = s.brm ∧ (markStop l tag s).blu = s.blu ∧ (markStop l tag s).mrp = s.mrp ∧
    (markStop l tag s).owed = s.owed ∧ (markStop l tag s).pending = s.pending ∧ (markStop l tag s).draws = s.draws :=
  ⟨rfl, rfl, rfl, rfl, rfl, rfl, rfl, rfl, rfl, rfl, rfl⟩

@[simp] theorem clearStop_lli (l : Lane) (s : State) : (clearStop l s).lli = { s.lli with stopMarks := s.lli.stopMarks.put l none } := rfl

@[simp] theorem clearStop_keeps (l : Lane) (s : State) :
    (clearStop l s).dli = s.dli ∧ (clearStop l s).frr = s.frr ∧ (clearStop l s).psv = s.psv ∧ (clearStop l s).cdp = s.cdp ∧
    (clearStop l s).sce = s.sce ∧ (clearStop l s).brm = s.brm ∧ (clearStop l s).blu = s.blu ∧ (clearStop l s).mrp = s.mrp ∧
    (clearStop l s).owed = s.owed ∧ (clearStop l s).pending = s.pending ∧ (clearStop l s).draws = s.draws :=
  ⟨rfl, rfl, rfl, rfl, rfl, rfl, rfl, rfl, rfl, rfl, rfl⟩

@[simp] theorem listCycle_lli (l : Lane) (tag : Byte) (s : State) : (listCycle l tag s).lli = { s.lli with cycleList := cycleListed l tag s.lli.cycleList } := rfl

@[simp] theorem listCycle_keeps (l : Lane) (tag : Byte) (s : State) :
    (listCycle l tag s).dli = s.dli ∧ (listCycle l tag s).frr = s.frr ∧ (listCycle l tag s).psv = s.psv ∧ (listCycle l tag s).cdp = s.cdp ∧
    (listCycle l tag s).sce = s.sce ∧ (listCycle l tag s).brm = s.brm ∧ (listCycle l tag s).blu = s.blu ∧ (listCycle l tag s).mrp = s.mrp ∧
    (listCycle l tag s).owed = s.owed ∧ (listCycle l tag s).pending = s.pending ∧ (listCycle l tag s).draws = s.draws :=
  ⟨rfl, rfl, rfl, rfl, rfl, rfl, rfl, rfl, rfl, rfl, rfl⟩

@[simp] theorem setLiftMark_lli (p : Pair) (b : Bool) (s : State) : (setLiftMark p b s).lli = { s.lli with liftMarks := s.lli.liftMarks.put p b } := rfl

@[simp] theorem setLiftMark_keeps (p : Pair) (b : Bool) (s : State) :
    (setLiftMark p b s).dli = s.dli ∧ (setLiftMark p b s).frr = s.frr ∧ (setLiftMark p b s).psv = s.psv ∧ (setLiftMark p b s).cdp = s.cdp ∧
    (setLiftMark p b s).sce = s.sce ∧ (setLiftMark p b s).brm = s.brm ∧ (setLiftMark p b s).blu = s.blu ∧ (setLiftMark p b s).mrp = s.mrp ∧
    (setLiftMark p b s).owed = s.owed ∧ (setLiftMark p b s).pending = s.pending ∧ (setLiftMark p b s).draws = s.draws :=
  ⟨rfl, rfl, rfl, rfl, rfl, rfl, rfl, rfl, rfl, rfl, rfl⟩

@[simp] theorem setProbeMark_lli (l : Lane) (b : Bool) (s : State) : (setProbeMark l b s).lli = { s.lli with probeMarks := s.lli.probeMarks.put l b } := rfl

@[simp] theorem setProbeMark_keeps (l : Lane) (b : Bool) (s : State) :
    (setProbeMark l b s).dli = s.dli ∧ (setProbeMark l b s).frr = s.frr ∧ (setProbeMark l b s).psv = s.psv ∧ (setProbeMark l b s).cdp = s.cdp ∧
    (setProbeMark l b s).sce = s.sce ∧ (setProbeMark l b s).brm = s.brm ∧ (setProbeMark l b s).blu = s.blu ∧ (setProbeMark l b s).mrp = s.mrp ∧
    (setProbeMark l b s).owed = s.owed ∧ (setProbeMark l b s).pending = s.pending ∧ (setProbeMark l b s).draws = s.draws :=
  ⟨rfl, rfl, rfl, rfl, rfl, rfl, rfl, rfl, rfl, rfl, rfl⟩

@[simp] theorem setConsole_lli (l : Lane) (c : Console) (s : State) : (setConsole l c s).lli = { s.lli with console := s.lli.console.put l c } := rfl

@[simp] theorem setConsole_keeps (l : Lane) (c : Console) (s : State) :
    (setConsole l c s).dli = s.dli ∧ (setConsole l c s).frr = s.frr ∧ (setConsole l c s).psv = s.psv ∧ (setConsole l c s).cdp = s.cdp ∧
    (setConsole l c s).sce = s.sce ∧ (setConsole l c s).brm = s.brm ∧ (setConsole l c s).blu = s.blu ∧ (setConsole l c s).mrp = s.mrp ∧
    (setConsole l c s).owed = s.owed ∧ (setConsole l c s).pending = s.pending ∧ (setConsole l c s).draws = s.draws :=
  ⟨rfl, rfl, rfl, rfl, rfl, rfl, rfl, rfl, rfl, rfl, rfl⟩

@[simp] theorem markStale_lli (l : Lane) (s : State) : (markStale l s).lli = { s.lli with console := s.lli.console.put l { s.lli.console.at l with stale := true } } := rfl

@[simp] theorem markStale_keeps (l : Lane) (s : State) :
    (markStale l s).dli = s.dli ∧ (markStale l s).frr = s.frr ∧ (markStale l s).psv = s.psv ∧ (markStale l s).cdp = s.cdp ∧
    (markStale l s).sce = s.sce ∧ (markStale l s).brm = s.brm ∧ (markStale l s).blu = s.blu ∧ (markStale l s).mrp = s.mrp ∧
    (markStale l s).owed = s.owed ∧ (markStale l s).pending = s.pending ∧ (markStale l s).draws = s.draws :=
  ⟨rfl, rfl, rfl, rfl, rfl, rfl, rfl, rfl, rfl, rfl, rfl⟩

@[simp] theorem setLine_lli (f : Option LaneFrame) (s : State) : (setLine f s).lli = { s.lli with line := f } := rfl

@[simp] theorem setLine_keeps (f : Option LaneFrame) (s : State) :
    (setLine f s).dli = s.dli ∧ (setLine f s).frr = s.frr ∧ (setLine f s).psv = s.psv ∧ (setLine f s).cdp = s.cdp ∧
    (setLine f s).sce = s.sce ∧ (setLine f s).brm = s.brm ∧ (setLine f s).blu = s.blu ∧ (setLine f s).mrp = s.mrp ∧
    (setLine f s).owed = s.owed ∧ (setLine f s).pending = s.pending ∧ (setLine f s).draws = s.draws :=
  ⟨rfl, rfl, rfl, rfl, rfl, rfl, rfl, rfl, rfl, rfl, rfl⟩

@[simp] theorem storeMachine_psv (l : Lane) (m : LaneMachine) (s : State) : (storeMachine l m s).psv = s.psv.put l m := rfl

@[simp] theorem storeMachine_keeps (l : Lane) (m : LaneMachine) (s : State) :
    (storeMachine l m s).lli = s.lli ∧ (storeMachine l m s).dli = s.dli ∧ (storeMachine l m s).frr = s.frr ∧ (storeMachine l m s).cdp = s.cdp ∧
    (storeMachine l m s).sce = s.sce ∧ (storeMachine l m s).brm = s.brm ∧ (storeMachine l m s).blu = s.blu ∧ (storeMachine l m s).mrp = s.mrp ∧
    (storeMachine l m s).owed = s.owed ∧ (storeMachine l m s).pending = s.pending ∧ (storeMachine l m s).draws = s.draws :=
  ⟨rfl, rfl, rfl, rfl, rfl, rfl, rfl, rfl, rfl, rfl, rfl⟩

@[simp] theorem setDispatcher_cdp (x : Dispatcher) (s : State) : (setDispatcher x s).cdp = x := rfl

@[simp] theorem setDispatcher_keeps (x : Dispatcher) (s : State) :
    (setDispatcher x s).lli = s.lli ∧ (setDispatcher x s).dli = s.dli ∧ (setDispatcher x s).frr = s.frr ∧ (setDispatcher x s).psv = s.psv ∧
    (setDispatcher x s).sce = s.sce ∧ (setDispatcher x s).brm = s.brm ∧ (setDispatcher x s).blu = s.blu ∧ (setDispatcher x s).mrp = s.mrp ∧
    (setDispatcher x s).owed = s.owed ∧ (setDispatcher x s).pending = s.pending ∧ (setDispatcher x s).draws = s.draws :=
  ⟨rfl, rfl, rfl, rfl, rfl, rfl, rfl, rfl, rfl, rfl, rfl⟩

@[simp] theorem setAuto_cdp (l : Lane) (a : Option AutoRequest) (s : State) : (setAuto l a s).cdp = { s.cdp with auto := s.cdp.auto.put l a } := rfl

@[simp] theorem setAuto_keeps (l : Lane) (a : Option AutoRequest) (s : State) :
    (setAuto l a s).lli = s.lli ∧ (setAuto l a s).dli = s.dli ∧ (setAuto l a s).frr = s.frr ∧ (setAuto l a s).psv = s.psv ∧
    (setAuto l a s).sce = s.sce ∧ (setAuto l a s).brm = s.brm ∧ (setAuto l a s).blu = s.blu ∧ (setAuto l a s).mrp = s.mrp ∧
    (setAuto l a s).owed = s.owed ∧ (setAuto l a s).pending = s.pending ∧ (setAuto l a s).draws = s.draws :=
  ⟨rfl, rfl, rfl, rfl, rfl, rfl, rfl, rfl, rfl, rfl, rfl⟩

@[simp] theorem setBackup_cdp (l : Lane) (b : Option Backup) (s : State) : (setBackup l b s).cdp = { s.cdp with backups := s.cdp.backups.put l b } := rfl

@[simp] theorem setBackup_keeps (l : Lane) (b : Option Backup) (s : State) :
    (setBackup l b s).lli = s.lli ∧ (setBackup l b s).dli = s.dli ∧ (setBackup l b s).frr = s.frr ∧ (setBackup l b s).psv = s.psv ∧
    (setBackup l b s).sce = s.sce ∧ (setBackup l b s).brm = s.brm ∧ (setBackup l b s).blu = s.blu ∧ (setBackup l b s).mrp = s.mrp ∧
    (setBackup l b s).owed = s.owed ∧ (setBackup l b s).pending = s.pending ∧ (setBackup l b s).draws = s.draws :=
  ⟨rfl, rfl, rfl, rfl, rfl, rfl, rfl, rfl, rfl, rfl, rfl⟩

@[simp] theorem setInject_cdp (r : Option InjectRequest) (s : State) : (setInject r s).cdp = { s.cdp with inject := r } := rfl

@[simp] theorem setInject_keeps (r : Option InjectRequest) (s : State) :
    (setInject r s).lli = s.lli ∧ (setInject r s).dli = s.dli ∧ (setInject r s).frr = s.frr ∧ (setInject r s).psv = s.psv ∧
    (setInject r s).sce = s.sce ∧ (setInject r s).brm = s.brm ∧ (setInject r s).blu = s.blu ∧ (setInject r s).mrp = s.mrp ∧
    (setInject r s).owed = s.owed ∧ (setInject r s).pending = s.pending ∧ (setInject r s).draws = s.draws :=
  ⟨rfl, rfl, rfl, rfl, rfl, rfl, rfl, rfl, rfl, rfl, rfl⟩

@[simp] theorem setDiscard_cdp (l : Lane) (b : Bool) (s : State) : (setDiscard l b s).cdp = { s.cdp with discardOnAbort := s.cdp.discardOnAbort.put l b } := rfl

@[simp] theorem setDiscard_keeps (l : Lane) (b : Bool) (s : State) :
    (setDiscard l b s).lli = s.lli ∧ (setDiscard l b s).dli = s.dli ∧ (setDiscard l b s).frr = s.frr ∧ (setDiscard l b s).psv = s.psv ∧
    (setDiscard l b s).sce = s.sce ∧ (setDiscard l b s).brm = s.brm ∧ (setDiscard l b s).blu = s.blu ∧ (setDiscard l b s).mrp = s.mrp ∧
    (setDiscard l b s).owed = s.owed ∧ (setDiscard l b s).pending = s.pending ∧ (setDiscard l b s).draws = s.draws :=
  ⟨rfl, rfl, rfl, rfl, rfl, rfl, rfl, rfl, rfl, rfl, rfl⟩

@[simp] theorem setDelivery_sce (l : Lane) (d : Option Delivery) (s : State) : (setDelivery l d s).sce = { s.sce with deliveries := s.sce.deliveries.put l d } := rfl

@[simp] theorem setDelivery_keeps (l : Lane) (d : Option Delivery) (s : State) :
    (setDelivery l d s).lli = s.lli ∧ (setDelivery l d s).dli = s.dli ∧ (setDelivery l d s).frr = s.frr ∧ (setDelivery l d s).psv = s.psv ∧
    (setDelivery l d s).cdp = s.cdp ∧ (setDelivery l d s).brm = s.brm ∧ (setDelivery l d s).blu = s.blu ∧ (setDelivery l d s).mrp = s.mrp ∧
    (setDelivery l d s).owed = s.owed ∧ (setDelivery l d s).pending = s.pending ∧ (setDelivery l d s).draws = s.draws :=
  ⟨rfl, rfl, rfl, rfl, rfl, rfl, rfl, rfl, rfl, rfl, rfl⟩

@[simp] theorem setTeam_sce (k : Slot) (t : Option Team) (s : State) : (setTeam k t s).sce = { s.sce with teams := s.sce.teams.put k t } := rfl

@[simp] theorem setTeam_keeps (k : Slot) (t : Option Team) (s : State) :
    (setTeam k t s).lli = s.lli ∧ (setTeam k t s).dli = s.dli ∧ (setTeam k t s).frr = s.frr ∧ (setTeam k t s).psv = s.psv ∧
    (setTeam k t s).cdp = s.cdp ∧ (setTeam k t s).brm = s.brm ∧ (setTeam k t s).blu = s.blu ∧ (setTeam k t s).mrp = s.mrp ∧
    (setTeam k t s).owed = s.owed ∧ (setTeam k t s).pending = s.pending ∧ (setTeam k t s).draws = s.draws :=
  ⟨rfl, rfl, rfl, rfl, rfl, rfl, rfl, rfl, rfl, rfl, rfl⟩

@[simp] theorem setMode_sce (p : Pair) (m : PairMode) (s : State) : (setMode p m s).sce = { s.sce with modes := s.sce.modes.put p m } := rfl

@[simp] theorem setMode_keeps (p : Pair) (m : PairMode) (s : State) :
    (setMode p m s).lli = s.lli ∧ (setMode p m s).dli = s.dli ∧ (setMode p m s).frr = s.frr ∧ (setMode p m s).psv = s.psv ∧
    (setMode p m s).cdp = s.cdp ∧ (setMode p m s).brm = s.brm ∧ (setMode p m s).blu = s.blu ∧ (setMode p m s).mrp = s.mrp ∧
    (setMode p m s).owed = s.owed ∧ (setMode p m s).pending = s.pending ∧ (setMode p m s).draws = s.draws :=
  ⟨rfl, rfl, rfl, rfl, rfl, rfl, rfl, rfl, rfl, rfl, rfl⟩

@[simp] theorem setCorrection_sce (l : Lane) (c : Option Correction) (s : State) : (setCorrection l c s).sce = { s.sce with corrections := s.sce.corrections.put l c } := rfl

@[simp] theorem setCorrection_keeps (l : Lane) (c : Option Correction) (s : State) :
    (setCorrection l c s).lli = s.lli ∧ (setCorrection l c s).dli = s.dli ∧ (setCorrection l c s).frr = s.frr ∧ (setCorrection l c s).psv = s.psv ∧
    (setCorrection l c s).cdp = s.cdp ∧ (setCorrection l c s).brm = s.brm ∧ (setCorrection l c s).blu = s.blu ∧ (setCorrection l c s).mrp = s.mrp ∧
    (setCorrection l c s).owed = s.owed ∧ (setCorrection l c s).pending = s.pending ∧ (setCorrection l c s).draws = s.draws :=
  ⟨rfl, rfl, rfl, rfl, rfl, rfl, rfl, rfl, rfl, rfl, rfl⟩

@[simp] theorem putPair_brm (p : Pair) (r : PairRecord) (s : State) : (putPair p r s).brm = s.brm.put p r := rfl

@[simp] theorem putPair_keeps (p : Pair) (r : PairRecord) (s : State) :
    (putPair p r s).lli = s.lli ∧ (putPair p r s).dli = s.dli ∧ (putPair p r s).frr = s.frr ∧ (putPair p r s).psv = s.psv ∧
    (putPair p r s).cdp = s.cdp ∧ (putPair p r s).sce = s.sce ∧ (putPair p r s).blu = s.blu ∧ (putPair p r s).mrp = s.mrp ∧
    (putPair p r s).owed = s.owed ∧ (putPair p r s).pending = s.pending ∧ (putPair p r s).draws = s.draws :=
  ⟨rfl, rfl, rfl, rfl, rfl, rfl, rfl, rfl, rfl, rfl, rfl⟩

@[simp] theorem putSession_blu (l : Lane) (x : Session) (s : State) : (putSession l x s).blu = { s.blu with sessions := s.blu.sessions.put l x } := rfl

@[simp] theorem putSession_keeps (l : Lane) (x : Session) (s : State) :
    (putSession l x s).lli = s.lli ∧ (putSession l x s).dli = s.dli ∧ (putSession l x s).frr = s.frr ∧ (putSession l x s).psv = s.psv ∧
    (putSession l x s).cdp = s.cdp ∧ (putSession l x s).sce = s.sce ∧ (putSession l x s).brm = s.brm ∧ (putSession l x s).mrp = s.mrp ∧
    (putSession l x s).owed = s.owed ∧ (putSession l x s).pending = s.pending ∧ (putSession l x s).draws = s.draws :=
  ⟨rfl, rfl, rfl, rfl, rfl, rfl, rfl, rfl, rfl, rfl, rfl⟩

@[simp] theorem setLog_blu (log : List LogRecord) (next fetch : BitVec 16) (s : State) : (setLog log next fetch s).blu = { s.blu with log := log, nextSeq := next, fetchPos := fetch } := rfl

@[simp] theorem setLog_keeps (log : List LogRecord) (next fetch : BitVec 16) (s : State) :
    (setLog log next fetch s).lli = s.lli ∧ (setLog log next fetch s).dli = s.dli ∧ (setLog log next fetch s).frr = s.frr ∧ (setLog log next fetch s).psv = s.psv ∧
    (setLog log next fetch s).cdp = s.cdp ∧ (setLog log next fetch s).sce = s.sce ∧ (setLog log next fetch s).brm = s.brm ∧ (setLog log next fetch s).mrp = s.mrp ∧
    (setLog log next fetch s).owed = s.owed ∧ (setLog log next fetch s).pending = s.pending ∧ (setLog log next fetch s).draws = s.draws :=
  ⟨rfl, rfl, rfl, rfl, rfl, rfl, rfl, rfl, rfl, rfl, rfl⟩

@[simp] theorem setTariff_blu (i : TariffIndex) (t : Option Tariff) (s : State) : (setTariff i t s).blu = { s.blu with tariffs := s.blu.tariffs.put i t } := rfl

@[simp] theorem setTariff_keeps (i : TariffIndex) (t : Option Tariff) (s : State) :
    (setTariff i t s).lli = s.lli ∧ (setTariff i t s).dli = s.dli ∧ (setTariff i t s).frr = s.frr ∧ (setTariff i t s).psv = s.psv ∧
    (setTariff i t s).cdp = s.cdp ∧ (setTariff i t s).sce = s.sce ∧ (setTariff i t s).brm = s.brm ∧ (setTariff i t s).mrp = s.mrp ∧
    (setTariff i t s).owed = s.owed ∧ (setTariff i t s).pending = s.pending ∧ (setTariff i t s).draws = s.draws :=
  ⟨rfl, rfl, rfl, rfl, rfl, rfl, rfl, rfl, rfl, rfl, rfl⟩

@[simp] theorem setPart_mrp (x : PartState) (s : State) : (setPart x s).mrp = { s.mrp with part := x } := rfl

@[simp] theorem setPart_keeps (x : PartState) (s : State) :
    (setPart x s).lli = s.lli ∧ (setPart x s).dli = s.dli ∧ (setPart x s).frr = s.frr ∧ (setPart x s).psv = s.psv ∧
    (setPart x s).cdp = s.cdp ∧ (setPart x s).sce = s.sce ∧ (setPart x s).brm = s.brm ∧ (setPart x s).blu = s.blu ∧
    (setPart x s).owed = s.owed ∧ (setPart x s).pending = s.pending ∧ (setPart x s).draws = s.draws :=
  ⟨rfl, rfl, rfl, rfl, rfl, rfl, rfl, rfl, rfl, rfl, rfl⟩

@[simp] theorem setHalt_mrp (x : HaltLine) (s : State) : (setHalt x s).mrp = { s.mrp with halt := x } := rfl

@[simp] theorem setHalt_keeps (x : HaltLine) (s : State) :
    (setHalt x s).lli = s.lli ∧ (setHalt x s).dli = s.dli ∧ (setHalt x s).frr = s.frr ∧ (setHalt x s).psv = s.psv ∧
    (setHalt x s).cdp = s.cdp ∧ (setHalt x s).sce = s.sce ∧ (setHalt x s).brm = s.brm ∧ (setHalt x s).blu = s.blu ∧
    (setHalt x s).owed = s.owed ∧ (setHalt x s).pending = s.pending ∧ (setHalt x s).draws = s.draws :=
  ⟨rfl, rfl, rfl, rfl, rfl, rfl, rfl, rfl, rfl, rfl, rfl⟩

@[simp] theorem setParams_mrp (p : Params) (s : State) : (setParams p s).mrp = { s.mrp with params := p } := rfl

@[simp] theorem setParams_keeps (p : Params) (s : State) :
    (setParams p s).lli = s.lli ∧ (setParams p s).dli = s.dli ∧ (setParams p s).frr = s.frr ∧ (setParams p s).psv = s.psv ∧
    (setParams p s).cdp = s.cdp ∧ (setParams p s).sce = s.sce ∧ (setParams p s).brm = s.brm ∧ (setParams p s).blu = s.blu ∧
    (setParams p s).owed = s.owed ∧ (setParams p s).pending = s.pending ∧ (setParams p s).draws = s.draws :=
  ⟨rfl, rfl, rfl, rfl, rfl, rfl, rfl, rfl, rfl, rfl, rfl⟩

@[simp] theorem setClock_mrp (seconds : Nat) (b : Bool) (s : State) : (setClock seconds b s).mrp = { s.mrp with clock := seconds, clockSet := b } := rfl

@[simp] theorem setClock_keeps (seconds : Nat) (b : Bool) (s : State) :
    (setClock seconds b s).lli = s.lli ∧ (setClock seconds b s).dli = s.dli ∧ (setClock seconds b s).frr = s.frr ∧ (setClock seconds b s).psv = s.psv ∧
    (setClock seconds b s).cdp = s.cdp ∧ (setClock seconds b s).sce = s.sce ∧ (setClock seconds b s).brm = s.brm ∧ (setClock seconds b s).blu = s.blu ∧
    (setClock seconds b s).owed = s.owed ∧ (setClock seconds b s).pending = s.pending ∧ (setClock seconds b s).draws = s.draws :=
  ⟨rfl, rfl, rfl, rfl, rfl, rfl, rfl, rfl, rfl, rfl, rfl⟩

@[simp] theorem setLaneEntry_frr (l : Lane) (e : LaneEntry) (s : State) : (setLaneEntry l e s).frr = { s.frr with lanes := s.frr.lanes.put l e } := rfl

@[simp] theorem setLaneEntry_keeps (l : Lane) (e : LaneEntry) (s : State) :
    (setLaneEntry l e s).lli = s.lli ∧ (setLaneEntry l e s).dli = s.dli ∧ (setLaneEntry l e s).psv = s.psv ∧ (setLaneEntry l e s).cdp = s.cdp ∧
    (setLaneEntry l e s).sce = s.sce ∧ (setLaneEntry l e s).brm = s.brm ∧ (setLaneEntry l e s).blu = s.blu ∧ (setLaneEntry l e s).mrp = s.mrp ∧
    (setLaneEntry l e s).owed = s.owed ∧ (setLaneEntry l e s).pending = s.pending ∧ (setLaneEntry l e s).draws = s.draws :=
  ⟨rfl, rfl, rfl, rfl, rfl, rfl, rfl, rfl, rfl, rfl, rfl⟩

@[simp] theorem setPairEntry_frr (p : Pair) (e : PairEntry) (s : State) : (setPairEntry p e s).frr = { s.frr with pairs := s.frr.pairs.put p e } := rfl

@[simp] theorem setPairEntry_keeps (p : Pair) (e : PairEntry) (s : State) :
    (setPairEntry p e s).lli = s.lli ∧ (setPairEntry p e s).dli = s.dli ∧ (setPairEntry p e s).psv = s.psv ∧ (setPairEntry p e s).cdp = s.cdp ∧
    (setPairEntry p e s).sce = s.sce ∧ (setPairEntry p e s).brm = s.brm ∧ (setPairEntry p e s).blu = s.blu ∧ (setPairEntry p e s).mrp = s.mrp ∧
    (setPairEntry p e s).owed = s.owed ∧ (setPairEntry p e s).pending = s.pending ∧ (setPairEntry p e s).draws = s.draws :=
  ⟨rfl, rfl, rfl, rfl, rfl, rfl, rfl, rfl, rfl, rfl, rfl⟩

@[simp] theorem setEnabled_frr (l : Lane) (b : Bool) (s : State) : (setEnabled l b s).frr = { s.frr with lanes := s.frr.lanes.put l { s.laneEntry l with enabled := b } } := rfl

@[simp] theorem setEnabled_keeps (l : Lane) (b : Bool) (s : State) :
    (setEnabled l b s).lli = s.lli ∧ (setEnabled l b s).dli = s.dli ∧ (setEnabled l b s).psv = s.psv ∧ (setEnabled l b s).cdp = s.cdp ∧
    (setEnabled l b s).sce = s.sce ∧ (setEnabled l b s).brm = s.brm ∧ (setEnabled l b s).blu = s.blu ∧ (setEnabled l b s).mrp = s.mrp ∧
    (setEnabled l b s).owed = s.owed ∧ (setEnabled l b s).pending = s.pending ∧ (setEnabled l b s).draws = s.draws :=
  ⟨rfl, rfl, rfl, rfl, rfl, rfl, rfl, rfl, rfl, rfl, rfl⟩

@[simp] theorem withPending_pending (q : List Instr) (s : State) : (s.withPending q).pending = q := rfl

@[simp] theorem withPending_keeps (q : List Instr) (s : State) :
    (s.withPending q).lli = s.lli ∧ (s.withPending q).dli = s.dli ∧ (s.withPending q).frr = s.frr ∧ (s.withPending q).psv = s.psv ∧
    (s.withPending q).cdp = s.cdp ∧ (s.withPending q).sce = s.sce ∧ (s.withPending q).brm = s.brm ∧ (s.withPending q).blu = s.blu ∧
    (s.withPending q).mrp = s.mrp ∧ (s.withPending q).owed = s.owed ∧ (s.withPending q).draws = s.draws :=
  ⟨rfl, rfl, rfl, rfl, rfl, rfl, rfl, rfl, rfl, rfl, rfl⟩

/-! ### The readers after an update -/

theorem machine_storeMachine (l k : Lane) (m : LaneMachine) (s : State) :
    (storeMachine l m s).machine k = if k = l then m else s.machine k := Table.at_put _ _ _ _

theorem pair_putPair (p q : Pair) (r : PairRecord) (s : State) :
    (putPair p r s).pair q = if q = p then r else s.pair q := Table.at_put _ _ _ _

theorem session_putSession (l k : Lane) (x : Session) (s : State) :
    (putSession l x s).session k = if k = l then x else s.session k := Table.at_put _ _ _ _

theorem team_setTeam (k j : Slot) (t : Option Team) (s : State) :
    (setTeam k t s).team j = if j = k then t else s.team j := Table.at_put _ _ _ _

theorem delivery_setDelivery (l k : Lane) (d : Option Delivery) (s : State) :
    (setDelivery l d s).delivery k = if k = l then d else s.delivery k := Table.at_put _ _ _ _

theorem correction_setCorrection (l k : Lane) (c : Option Correction) (s : State) :
    (setCorrection l c s).correction k = if k = l then c else s.correction k := Table.at_put _ _ _ _

theorem mode_setMode (p q : Pair) (m : PairMode) (s : State) :
    (setMode p m s).mode q = if q = p then m else s.mode q := Table.at_put _ _ _ _

theorem auto_setAuto (l k : Lane) (a : Option AutoRequest) (s : State) :
    (setAuto l a s).auto k = if k = l then a else s.auto k := Table.at_put _ _ _ _

theorem backup_setBackup (l k : Lane) (b : Option Backup) (s : State) :
    (setBackup l b s).backup k = if k = l then b else s.backup k := Table.at_put _ _ _ _

theorem tariff_setTariff (i j : TariffIndex) (t : Option Tariff) (s : State) :
    (setTariff i t s).tariff j = if j = i then t else s.tariff j := Table.at_put _ _ _ _

theorem laneEntry_setLaneEntry (l k : Lane) (e : LaneEntry) (s : State) :
    (setLaneEntry l e s).laneEntry k = if k = l then e else s.laneEntry k := Table.at_put _ _ _ _

theorem pairEntry_setPairEntry (p q : Pair) (e : PairEntry) (s : State) :
    (setPairEntry p e s).pairEntry q = if q = p then e else s.pairEntry q := Table.at_put _ _ _ _

theorem enabled_setEnabled (l k : Lane) (b : Bool) (s : State) :
    (setEnabled l b s).enabled k = if k = l then b else s.enabled k := by
  simp only [State.enabled, State.laneEntry, setEnabled, Table.at_put]
  split <;> rfl

/-! ### Two states that agree on a block read alike -/

theorem machine_congr {s t : State} (h : t.psv = s.psv) (l : Lane) : t.machine l = s.machine l := by
  simp only [State.machine, h]

theorem holds_congr {s t : State} (h : t.psv = s.psv) (l : Lane) : t.holds l = s.holds l := by
  simp only [State.holds, machine_congr h]

theorem slotsInUse_congr {s t : State} (h : t.psv = s.psv) : t.slotsInUse = s.slotsInUse := by
  simp only [State.slotsInUse, machine_congr h]

theorem pair_congr {s t : State} (h : t.brm = s.brm) (p : Pair) : t.pair p = s.pair p := by
  simp only [State.pair, h]

theorem session_congr {s t : State} (h : t.blu.sessions = s.blu.sessions) (l : Lane) :
    t.session l = s.session l := by
  simp only [State.session, h]

theorem team_congr {s t : State} (h : t.sce.teams = s.sce.teams) (k : Slot) : t.team k = s.team k := by
  simp only [State.team, h]

theorem seatedTeam_congr {s t : State} (h : t.sce.teams = s.sce.teams) (l : Lane) :
    t.seatedTeam l = s.seatedTeam l := by
  simp only [State.seatedTeam, State.seatedSlot, team_congr h]

theorem enabled_congr {s t : State} (h : t.frr.lanes = s.frr.lanes) (l : Lane) :
    t.enabled l = s.enabled l := by
  simp only [State.enabled, State.laneEntry, h]

theorem pairEnabled_congr {s t : State} (h : t.frr.lanes = s.frr.lanes) (p : Pair) :
    t.pairEnabled p = s.pairEnabled p := by
  simp only [State.pairEnabled, enabled_congr h]

theorem terms_congr {s t : State} (h : t.blu.sessions = s.blu.sessions) (g : t.blu.tariffs = s.blu.tariffs)
    (l : Lane) : t.terms l = s.terms l := by
  simp only [State.terms, State.sessionTariff, State.tariff, session_congr h, g]

end Sys2Proof.Laws
end

