-- ==== Sys2Proof/Laws/Dispatch.lean ====
section
/-! SUPPORT. Laws/Dispatch.lean: the dispatch pass: what it chooses is eligible, each grant takes one slot, and a pass ends full or with nothing eligible (R64 to R67). -/

namespace Sys2Proof.Laws

open Sys2Proof.Machine

/-- The lane of a choice. -/
def choiceLane : Choice → Lane
  | .inject l _ => l
  | .autoEntry l _ => l
  | .autoBackup l _ => l
  | .batchBackup l _ => l
  | .batchHead l _ => l

/-- Whatever is chosen, its lane's machine is READY (R64). -/
theorem choose_ready (s : State) (c : Choice) (h : choose s = some c) : (s.machine (choiceLane c)).state = .ready := by
  obtain ⟨cls, _, hc⟩ := List.exists_of_findSome?_eq_some h
  cases cls with
  | inject =>
    simp only [choiceIn, injectChoice] at hc
    split at hc
    · split at hc
      · rename_i hg
        simp only [Option.some.injEq] at hc
        subst hc
        simp_all [choiceLane]
      · exact absurd hc (by simp)
    · exact absurd hc (by simp)
  | auto =>
    obtain ⟨l, _, hl⟩ := List.exists_of_findSome?_eq_some hc
    simp only [autoChoiceAt] at hl
    split at hl
    · rename_i hr
      have ready : (s.machine l).state = .ready := by
        simp only [State.readyUnheld, Bool.and_eq_true, beq_iff_eq] at hr
        exact hr.1
      split at hl
      · split at hl
        · simp only [Option.some.injEq] at hl
          subst hl
          exact ready
        · exact absurd hl (by simp)
      · obtain ⟨a, _, rfl⟩ := Option.map_eq_some_iff.mp hl
        exact ready
    · exact absurd hl (by simp)
  | batch =>
    simp only [choiceIn] at hc
    rcases Option.or_eq_some_iff.mp hc with hb | ⟨_, hb⟩
    · obtain ⟨l, _, hl⟩ := List.exists_of_findSome?_eq_some hb
      simp only [batchBackupAt] at hl
      split at hl
      · split at hl
        · rename_i hr
          simp only [Option.some.injEq] at hl
          subst hl
          simp only [State.readyUnheld, Bool.and_eq_true, beq_iff_eq] at hr
          exact hr.2.1
        · exact absurd hl (by simp)
      · exact absurd hl (by simp)
    · simp only [batchHeadChoice] at hb
      split at hb
      · split at hb
        · split at hb
          · rename_i hr
            simp only [Option.some.injEq] at hb
            subst hb
            simp only [State.readyUnheld, Bool.and_eq_true, beq_iff_eq] at hr
            exact hr.1.1
          · exact absurd hb (by simp)
        · exact absurd hb (by simp)
      · exact absurd hb (by simp)

/-- A grant puts its lane's machine in CYCLING and leaves the others (R31). -/
theorem grantChoice_psv (c : Choice) (s : State) :
    ∃ m, m.state = .cycling ∧ (grantChoice c s).psv = s.psv.put (choiceLane c) m := by
  cases c <;> exact ⟨_, rfl, rfl⟩

/-- The grant of what was chosen takes one slot more (R52). -/
theorem grantChoice_slots (s : State) (c : Choice) (h : choose s = some c) :
    (grantChoice c s).slotsInUse = s.slotsInUse + 1 := by
  obtain ⟨m, hm, hp⟩ := grantChoice_psv c s
  have := slotsInUse_put (choiceLane c) m s (grantChoice c s) hp
  simpa [choose_ready s c h, hm, MachineState.moving] using this

/-- The settling of the batch head changes no machine and no parameter (R61). -/
theorem settleBatch_slots (s : State) :
    (settleBatch s).slotsInUse = s.slotsInUse ∧ (settleBatch s).mrp = s.mrp := by
  unfold settleBatch replaceBatch
  dsimp only
  split <;> exact ⟨rfl, rfl⟩

/-- A grant changes no parameter. -/
theorem grantChoice_mrp (c : Choice) (s : State) : (grantChoice c s).mrp = s.mrp := by cases c <;> rfl

/-- The grants of a pass end with no slot free or nothing eligible, given as many rounds as there are slots free. -/
theorem passGrants_ends : ∀ (n : Nat) (s : State), s.mrp.params.slotBudget ≤ s.slotsInUse + n →
    let t := passGrants n s
    (s.mrp.params.slotBudget ≤ t.slotsInUse ∨ choose t = none) ∧ t.mrp = s.mrp
  | 0, s, h => ⟨Or.inl h, rfl⟩
  | n + 1, s, h => by
    dsimp only
    rw [passGrants]
    split
    · split
      · rename_i c hc
        have hs := settleBatch_slots (grantChoice c s)
        have hm : (settleBatch (grantChoice c s)).mrp = s.mrp := hs.2.trans (grantChoice_mrp c s)
        have hu : (settleBatch (grantChoice c s)).slotsInUse = s.slotsInUse + 1 := hs.1.trans (grantChoice_slots s c hc)
        have ih := passGrants_ends n (settleBatch (grantChoice c s)) (by rw [hm, hu]; omega)
        rw [hm] at ih
        exact ih
      · rename_i hc
        exact ⟨Or.inr hc, rfl⟩
    · rename_i hb
      exact ⟨Or.inl (Nat.le_of_not_lt hb), rfl⟩

/-- Rounds beyond the slots that are free change nothing. -/
theorem passGrants_enough : ∀ (n m : Nat) (s : State), s.mrp.params.slotBudget ≤ s.slotsInUse + n → n ≤ m →
    passGrants m s = passGrants n s
  | 0, 0, _, _, _ => rfl
  | 0, m + 1, s, h, _ => by
    simp only [passGrants]
    rw [if_neg (by omega)]
  | n + 1, 0, _, _, hm => by omega
  | n + 1, m + 1, s, h, hm => by
    rw [passGrants, passGrants]
    split
    · split
      · rename_i c hc
        have hs := settleBatch_slots (grantChoice c s)
        have hp : (settleBatch (grantChoice c s)).mrp = s.mrp := hs.2.trans (grantChoice_mrp c s)
        have hu : (settleBatch (grantChoice c s)).slotsInUse = s.slotsInUse + 1 := hs.1.trans (grantChoice_slots s c hc)
        exact passGrants_enough n m _ (by rw [hp, hu]; omega) (by omega)
      · rfl
    · rfl

/-- A cursor rests on the first lane at or below it that is not skipped (R61). -/
theorem settledCursor_rests (s : State) (first c : Nat) (low : 1 ≤ c) (within : first ≤ c) (rest : cursorSkips s c = false) :
    ∀ cursor : Nat, c ≤ cursor → (∀ n, c < n → n ≤ cursor → cursorSkips s n = true) → settledCursor s first cursor = some c
  | 0, h, _ => by omega
  | n + 1, h, skipped => by
    rw [settledCursor, if_neg (by omega)]
    by_cases e : c = n + 1
    · subst e
      simp [rest]
    · rw [if_pos (skipped (n + 1) (by omega) (by omega))]
      exact settledCursor_rests s first c low within rest n (by omega) fun m a b => skipped m a (by omega)

/-- A cursor that every lane of its range skips moves below the first lane (R61). -/
theorem settledCursor_gone (s : State) (first : Nat) :
    ∀ cursor : Nat, (∀ n, 1 ≤ n → first ≤ n → n ≤ cursor → cursorSkips s n = true) → settledCursor s first cursor = none
  | 0, _ => rfl
  | n + 1, skipped => by
    rw [settledCursor]
    split
    · rfl
    · rw [if_pos (skipped (n + 1) (by omega) (by omega) (by omega))]
      exact settledCursor_gone s first n fun m a b c => skipped m a b (by omega)

/-- The settlement of a report changes the Cycle Dispatcher alone (R69, R70). -/
theorem settleReport_writes_cdp (r : CycleReport) (s : State) : settleReport r s = { s with cdp := (settleReport r s).cdp } := by
  unfold settleReport settleInject disposeCycle
  split
  · split <;> split <;> rfl
  · split <;> rfl

/-- The end of a cycle leaves at the Cycle Dispatcher what the settlement of its report leaves (R35). -/
theorem cdp_endCycle (r : CycleReport) (ended next : LaneMachine) (s : State) :
    (endCycle r ended next s).cdp = (settleReport r s).cdp := by
  unfold endCycle
  split <;> rfl

/-- A dispatch pass ends with no slot free or nothing eligible, and changes no parameter (R65). -/
theorem dispatchPass_ends (s : State) :
    (s.mrp.params.slotBudget ≤ (dispatchPass s).slotsInUse ∨ choose (dispatchPass s) = none) ∧
      (dispatchPass s).mrp = s.mrp := by
  have hs := settleBatch_slots s
  have := passGrants_ends s.mrp.params.slotBudget (settleBatch s) (by rw [hs.2]; omega)
  rw [hs.2] at this
  exact this

/-- The grants of a pass never take a slot beyond the budget (R52). -/
theorem passGrants_within : ∀ (n : Nat) (s : State), s.slotsInUse ≤ s.mrp.params.slotBudget →
    (passGrants n s).slotsInUse ≤ s.mrp.params.slotBudget
  | 0, _, h => h
  | n + 1, s, h => by
    rw [passGrants]
    split
    · split
      · rename_i hb c hc
        have hs := settleBatch_slots (grantChoice c s)
        have hm : (settleBatch (grantChoice c s)).mrp = s.mrp := hs.2.trans (grantChoice_mrp c s)
        have hu : (settleBatch (grantChoice c s)).slotsInUse = s.slotsInUse + 1 := hs.1.trans (grantChoice_slots s c hc)
        have ih := passGrants_within n (settleBatch (grantChoice c s)) (by rw [hm, hu]; omega)
        rw [hm] at ih
        exact ih
      · exact h
    · exact h

/-- A dispatch pass never takes a slot beyond the budget (R52). -/
theorem dispatchPass_within (s : State) (h : s.slotsInUse ≤ s.mrp.params.slotBudget) :
    (dispatchPass s).slotsInUse ≤ s.mrp.params.slotBudget := by
  have hs := settleBatch_slots s
  have := passGrants_within s.mrp.params.slotBudget (settleBatch s) (by rw [hs.1, hs.2]; exact h)
  rw [hs.2] at this
  exact this

end Sys2Proof.Laws
end

