-- ==== Sys2Proof/Laws/Downstream.lean ====
section
/-! SUPPORT. Laws/Downstream.lean: the choice of the next frame down the Lane Link: each choice that sends nothing takes away something that waited, so what DOWNSTREAM_LINE_FREE does is its first choice and, when that sends nothing, the choice made again (R15 to R18). -/

namespace Sys2Proof.Laws

open Sys2Proof.Machine

/-- How many marks, entries, lanes with console traffic and queued frames wait for the downstream line. -/
def waiting (s : State) : Nat :=
  allLanes.countP (fun l => (s.lli.stopMarks.at l).isSome) + s.lli.cycleList.length +
    allPairs.countP (fun p => s.lli.liftMarks.at p) + allLanes.countP (fun l => s.lli.probeMarks.at l) +
    allLanes.countP (fun l => (s.lli.console.at l).traffic) + s.lli.forwardDown.length

/-- A place of a list without repetition that no longer answers lowers the count. -/
theorem countP_falls {α : Type} [DecidableEq α] (p q : α → Bool) (a : α) (xs : List α) (hn : xs.Nodup) (ha : a ∈ xs)
    (before : p a = true) (after : q a = false) (same : ∀ b, b ≠ a → q b = p b) : xs.countP q < xs.countP p := by
  have := countP_update p q a same xs hn ha
  simp only [before, after, if_true, Bool.false_eq_true, if_false] at this
  omega

/-- What waits does not exceed the bound on the choices. -/
theorem waiting_lt_pickBound (s : State) : waiting s < pickBound s := by
  have lanes : ∀ p : Lane → Bool, allLanes.countP p ≤ 32 := fun p =>
    Nat.le_trans List.countP_le_length (by simp [allLanes])
  have pairs : ∀ p : Pair → Bool, allPairs.countP p ≤ 16 := fun p =>
    Nat.le_trans List.countP_le_length (by simp [allPairs])
  exact Nat.lt_succ_of_le (Nat.add_le_add (Nat.add_le_add (Nat.add_le_add (Nat.add_le_add
    (Nat.add_le_add (lanes _) (Nat.le_refl _)) (pairs _)) (lanes _)) (lanes _)) (Nat.le_refl _))

/-- A frame to an address that may be absent makes the choice again only with the state as given. -/
theorem sendTo_again {addr : Option Byte} {kind : Byte} {payload : List Byte} {s t : State}
    (h : sendTo addr kind payload s = .again t) : t = s := by
  unfold sendTo at h
  split at h
  · simp at h
  · simpa using h.symm

theorem waiting_clearStop (l : Lane) (s : State) (h : (s.lli.stopMarks.at l).isSome = true) :
    waiting (clearStop l s) < waiting s := by
  have := countP_falls (fun k => (s.lli.stopMarks.at k).isSome) (fun k => ((clearStop l s).lli.stopMarks.at k).isSome) l
    allLanes (List.nodup_finRange 32) (mem_allLanes l) h (by simp [clearStop, setLink])
    (fun k hk => by simp [clearStop, setLink, hk])
  unfold waiting at *
  simp only [clearStop, setLink] at *
  omega

theorem waiting_dropCycle (s : State) (h : s.lli.cycleList ≠ []) : waiting (dropCycle s) < waiting s := by
  have := List.length_pos_of_ne_nil h
  unfold waiting
  simp only [dropCycle, setLink, List.length_tail]
  omega

theorem waiting_setLiftMark (p : Pair) (s : State) (h : s.lli.liftMarks.at p = true) :
    waiting (setLiftMark p false s) < waiting s := by
  have := countP_falls (fun q => s.lli.liftMarks.at q) (fun q => (setLiftMark p false s).lli.liftMarks.at q) p
    allPairs (List.nodup_finRange 16) (mem_allPairs p) h (by simp [setLiftMark, setLink])
    (fun k hk => by simp [setLiftMark, setLink, hk])
  unfold waiting at *
  simp only [setLiftMark, setLink] at *
  omega

theorem waiting_setProbeMark (l : Lane) (s : State) (h : s.lli.probeMarks.at l = true) :
    waiting (setProbeMark l false s) < waiting s := by
  have := countP_falls (fun k => s.lli.probeMarks.at k) (fun k => (setProbeMark l false s).lli.probeMarks.at k) l
    allLanes (List.nodup_finRange 32) (mem_allLanes l) h (by simp [setProbeMark, setLink])
    (fun k hk => by simp [setProbeMark, setLink, hk])
  unfold waiting at *
  simp only [setProbeMark, setLink] at *
  omega

theorem waiting_consoleServed (l : Lane) (s : State) (h : (s.lli.console.at l).traffic = true) :
    waiting (consoleServed l ⟨false, []⟩ s) < waiting s := by
  have := countP_falls (fun k => (s.lli.console.at k).traffic)
    (fun k => ((consoleServed l ⟨false, []⟩ s).lli.console.at k).traffic) l
    allLanes (List.nodup_finRange 32) (mem_allLanes l) h (by simp [consoleServed, setLink, Console.traffic])
    (fun k hk => by simp [consoleServed, setLink, hk])
  unfold waiting at *
  simp only [consoleServed, setLink] at *
  omega

/-- A refusal leaves the Lane Link Interface as it stands. -/
theorem lli_refuse (dest : Byte) (reason : RefusalReason) (s : State) : (refuse dest reason s).lli = s.lli := by
  unfold refuse
  split <;> rfl

/-- A lowest-tier choice that sends nothing takes away what it looked at (R15, R17, R18). -/
theorem pickLowest_again (s t : State) (h : pickLowest s = .again t) : waiting t < waiting s := by
  have console : ∀ l, consoleLane s = some l → pickConsole l s = .again t → waiting t < waiting s := by
    intro l hl hp
    have traffic := List.find?_some hl
    unfold pickConsole at hp
    split at hp
    · simp only [Pick.again.injEq] at hp
      subst hp
      exact waiting_consoleServed l s traffic
    · dsimp only at hp
      split at hp <;> simp at hp
  have queued : ∀ f rest, s.lli.forwardDown = f :: rest → pickQueued f rest s = .again t → waiting t < waiting s := by
    intro f rest hf hp
    unfold pickQueued at hp
    split at hp
    · simp only [Pick.again.injEq] at hp
      subst hp
      unfold waiting
      simp only [lli_refuse, setLink, hf, List.length_cons]
      omega
    · simp at hp
  unfold pickLowest at h
  split at h
  · simp at h
  · exact console _ (by assumption) h
  · exact queued _ _ (by assumption) h
  · split at h
    · exact queued _ _ (by assumption) h
    · exact console _ (by assumption) h

/-- A choice that sends nothing takes away something that waited (R16, R18). -/
theorem pick_again (s t : State) (h : pick s = .again t) : waiting t < waiting s := by
  unfold pick at h
  split at h
  · rename_i l tag hs
    obtain ⟨k, _, hk⟩ := List.exists_of_findSome?_eq_some hs
    have mark : (s.lli.stopMarks.at l).isSome = true := by
      unfold eligibleStop at hk
      split at hk
      · simp at hk
      · obtain ⟨x, hx, e⟩ := Option.map_eq_some_iff.mp hk
        obtain ⟨rfl, rfl⟩ := Prod.mk.inj e
        simp [hx]
    unfold pickStop at h
    split at h
    · rw [sendTo_again h]; exact waiting_clearStop l s mark
    · simp only [Pick.again.injEq] at h
      subst h
      exact waiting_clearStop l s mark
  · split at h
    · rename_i l tag rest hc
      have some' : s.lli.cycleList ≠ [] := by simp [hc]
      unfold pickCycle at h
      split at h
      · split at h
        · rw [sendTo_again h]; exact waiting_dropCycle s some'
        · simp only [Pick.again.injEq] at h
          subst h
          exact waiting_dropCycle s some'
      · simp only [Pick.again.injEq] at h
        subst h
        exact waiting_dropCycle s some'
    · split at h
      · rename_i p hp
        rw [sendTo_again h]
        exact waiting_setLiftMark p s (by simpa using List.find?_some hp)
      · split at h
        · rename_i l hl
          rw [sendTo_again h]
          exact waiting_setProbeMark l s (by simpa using List.find?_some hl)
        · exact pickLowest_again s t h

/-- With more choices allowed than things that wait, their number does not matter. -/
theorem pickFrame_enough (n m : Nat) (s : State) (hn : waiting s < n) (hm : waiting s < m) : pickFrame n s = pickFrame m s := by
  induction n generalizing m s with
  | zero => omega
  | succ n ih =>
    cases m with
    | zero => omega
    | succ m =>
      unfold pickFrame
      split
      · rfl
      · rfl
      · rename_i t ht
        have := pick_again s t ht
        exact ih m t (by omega) (by omega)

/-- What the line's becoming free does is the first choice: the line idle, a frame sent, or the choice made again at once (R18). -/
theorem lineFreeEffect_pick (s : State) :
    lineFreeEffect s = match pick s with
      | .idle => setLine none s
      | .sent f t => setLine (some f) t
      | .again t => lineFreeEffect t := by
  obtain ⟨n, hn⟩ : ∃ n, pickBound s = n + 1 := ⟨_, rfl⟩
  have bound := waiting_lt_pickBound s
  unfold lineFreeEffect
  rw [hn]
  rw [pickFrame]
  cases h : pick s with
  | idle => rfl
  | sent f t => rfl
  | again t =>
    have := pick_again s t h
    exact pickFrame_enough _ _ t (by omega) (waiting_lt_pickBound t)

end Sys2Proof.Laws
end

