-- ==== Sys2Proof/Laws/Frames.lean ====
section
/-! SUPPORT. Laws/Frames.lean: the frames of both links read back from their bytes, and every frame read was sent so (R5, R12, R25). -/

namespace Sys2Proof.Laws

/-- A two-byte field read from its bytes. -/
@[simp] theorem word16_bytes (x : BitVec 16) : word16 (x.extractLsb' 8 8) (x.extractLsb' 0 8) = x := by
  apply BitVec.eq_of_getLsbD_eq
  intro i hi
  simp only [word16, BitVec.getLsbD_append, BitVec.getLsbD_extractLsb']
  by_cases h : i < 8
  · simp [h]
  · simp [h, show i - 8 < 8 by omega, show 8 + (i - 8) = i by omega]

/-- A four-byte field read from its bytes. -/
@[simp] theorem word32_bytes (x : BitVec 32) :
    word32 (x.extractLsb' 24 8) (x.extractLsb' 16 8) (x.extractLsb' 8 8) (x.extractLsb' 0 8) = x := by
  apply BitVec.eq_of_getLsbD_eq
  intro i hi
  simp only [word32, BitVec.getLsbD_append, BitVec.getLsbD_extractLsb']
  by_cases h : i < 8
  · simp [h]
  · by_cases h2 : i < 16
    · simp [h, show i - 8 < 8 by omega, show 8 + (i - 8) = i by omega]
    · by_cases h3 : i < 24
      · simp [h, show ¬ i - 8 < 8 by omega, show i - 8 - 8 < 8 by omega, show 16 + (i - 8 - 8) = i by omega]
      · simp [h, show ¬ i - 8 < 8 by omega, show ¬ i - 8 - 8 < 8 by omega, show i - 8 - 8 - 8 < 8 by omega,
          show 24 + (i - 8 - 8 - 8) = i by omega]

/-- The bytes of a two-byte field that was read from two bytes. -/
@[simp] theorem bytes16_word16 (a b : Byte) : bytes16 (word16 a b) = [a, b] := by
  have high : (word16 a b).extractLsb' 8 8 = a := by
    apply BitVec.eq_of_getLsbD_eq
    intro i hi
    rw [BitVec.getLsbD_extractLsb', word16, BitVec.getLsbD_append]
    simp [hi]
  have low : (word16 a b).extractLsb' 0 8 = b := by
    apply BitVec.eq_of_getLsbD_eq
    intro i hi
    rw [BitVec.getLsbD_extractLsb', word16, BitVec.getLsbD_append]
    simp [hi]
  simp [bytes16, high, low]

@[simp] theorem bytes16_length (x : BitVec 16) : (bytes16 x).length = 2 := rfl

/-- The bytes of a Lane Link frame are read as that frame (R5). -/
theorem laneFrameOfBytes_wire (f : LaneFrame) (h : f.payload.length ≤ 28) : laneFrameOfBytes f.wire = some f := by
  have len : (BitVec.ofNat 8 f.payload.length).toNat = f.payload.length := by
    simp [BitVec.toNat_ofNat]
    omega
  simp [laneFrameOfBytes, LaneFrame.wire, len, h]

/-- The bytes read as a Lane Link frame are the bytes of that frame (R5). -/
theorem laneFrameOfBytes_some (bytes : List Byte) (f : LaneFrame) (h : laneFrameOfBytes bytes = some f) :
    f.payload.length ≤ 28 ∧ bytes = f.wire := by
  unfold laneFrameOfBytes at h
  split at h
  · rename_i addr kind len rest
    dsimp only at h
    split at h
    · rename_i hc
      obtain ⟨h1, h2, h3⟩ := hc
      simp only [Option.some.injEq] at h
      subst h
      have l1 : (rest.take len.toNat).length = len.toNat := by
        rw [List.length_take]
        omega
      refine ⟨by simpa [l1] using h2, ?_⟩
      simp only [LaneFrame.wire, l1, BitVec.ofNat_toNat, BitVec.setWidth_eq]
      rw [← h3]
      simp
    · exact absurd h (by simp)
  · exact absurd h (by simp)

/-- The bytes of a Desk Link frame are read as that frame (R12). -/
theorem deskFrameOfBytes_wire (f : DeskFrame) (h : f.payload.length ≤ 512) : deskFrameOfBytes f.wire = some f := by
  have len : (BitVec.ofNat 16 f.payload.length).toNat = f.payload.length := by
    simp [BitVec.toNat_ofNat]
    omega
  simp [deskFrameOfBytes, DeskFrame.wire, bytes16, len, h]

/-- The bytes read as a Desk Link frame are the bytes of that frame (R12). -/
theorem deskFrameOfBytes_some (bytes : List Byte) (f : DeskFrame) (h : deskFrameOfBytes bytes = some f) :
    f.payload.length ≤ 512 ∧ bytes = f.wire := by
  unfold deskFrameOfBytes at h
  split at h
  · rename_i addr kind b1 b0 rest
    dsimp only at h
    split at h
    · rename_i hc
      obtain ⟨h1, h2, h3⟩ := hc
      simp only [Option.some.injEq] at h
      subst h
      have l1 : (rest.take (word16 b1 b0).toNat).length = (word16 b1 b0).toNat := by
        rw [List.length_take]
        omega
      refine ⟨by simpa [l1] using h2, ?_⟩
      simp only [DeskFrame.wire, l1, BitVec.ofNat_toNat, BitVec.setWidth_eq, bytes16_word16, List.cons_append,
        List.nil_append]
      rw [← h3]
      simp
    · exact absurd h (by simp)
  · exact absurd h (by simp)

/-! ### The lists of requests -/

/-- Name tags sent are read back (R26). -/
theorem parseNames_nameBytes : ∀ names : List (List Byte), (∀ n ∈ names, n.length ≤ 255) →
    parseNames names.length (nameBytes names) = some names
  | [], _ => rfl
  | n :: names, h => by
    have hn : (BitVec.ofNat 8 n.length).toNat = n.length := by
      have := h n List.mem_cons_self
      simp [BitVec.toNat_ofNat]
      omega
    have ih := parseNames_nameBytes names fun m hm => h m (List.mem_cons_of_mem _ hm)
    simp only [nameBytes] at ih
    simp [nameBytes, parseNames, hn, ih]

/-- Balls sent are read back (R128). -/
theorem parseBalls_ballBytes : ∀ balls : List WireBall, parseBalls balls.length (ballBytes balls) = some balls
  | [] => rfl
  | w :: balls => by
    have ih := parseBalls_ballBytes balls
    simp only [ballBytes] at ih
    simp [ballBytes, parseBalls, ih]

/-- Bands sent are read back, with the bytes after them (R152). -/
theorem parseBands_bandBytes (rest : List Byte) : ∀ bands : List WireBand,
    parseBands bands.length (bandBytes bands ++ rest) = some (bands, rest)
  | [] => rfl
  | b :: bands => by
    have ih := parseBands_bandBytes rest bands
    simp only [bandBytes, bytes16] at ih
    simp [bandBytes, parseBands, bytes16] at ih ⊢
    rw [ih]

end Sys2Proof.Laws
end

