-- ==== Sys2Proof/Laws/Operations.lean ====
section
/-! SUPPORT. Laws/Operations.lean: what each shared operation of the blocks does, said once: notices, machine records and holds, grants and stops, pair records, charge records. -/

namespace Sys2Proof.Laws

open Sys2Proof.Machine

/-! ### Notices (R20, R22) -/

theorem mem_noticesRaised (n m : Notice) (ns : List Notice) : m ∈ noticesRaised n ns ↔ m = n ∨ m ∈ ns := by
  unfold noticesRaised
  split
  · rename_i h
    exact ⟨.inr, fun h' => h'.elim (fun e => e ▸ h) id⟩
  · simp [or_comm]

theorem noticesRaised_nodup (n : Notice) (ns : List Notice) (h : ns.Nodup) : (noticesRaised n ns).Nodup := by
  unfold noticesRaised
  split
  · exact h
  · rename_i hn
    exact List.nodup_append.2 ⟨h, by simp, fun a ha b hb => by
      rw [List.mem_singleton] at hb
      exact hb ▸ fun e => hn (e ▸ ha)⟩

theorem noticesRaised_of_mem (n : Notice) (ns : List Notice) (h : n ∈ ns) : noticesRaised n ns = ns := by simp [noticesRaised, h]

theorem noticesRaised_of_not_mem (n : Notice) (ns : List Notice) (h : n ∉ ns) : noticesRaised n ns = ns ++ [n] := by
  simp [noticesRaised, h]

theorem mem_withdrawn (n m : Notice) (s : State) (h : s.dli.notices.Nodup) :
    m ∈ (withdraw n s).dli.notices ↔ m ≠ n ∧ m ∈ s.dli.notices := by
  simp [withdraw, h.mem_erase_iff]

/-! ### Machine records and holds (R27, R28, R48) -/

/-- A changed machine record stands in its place, the other lanes' records stand as they were. -/
theorem machine_putMachine (l k : Lane) (m : LaneMachine) (s : State) :
    (putMachine l m s).machine k = if k = l then m else s.machine k := by
  simp [putMachine, oweAll, storeMachine, State.machine, Table.at_put]

/-- The events of a change are owed behind those owed already. -/
theorem owed_putMachine (l : Lane) (m : LaneMachine) (s : State) :
    (putMachine l m s).owed = s.owed ++ changeEvents l (s.machine l) m := rfl

/-- A record put in its own place owes nothing. -/
theorem changeEvents_same (l : Lane) (m : LaneMachine) : changeEvents l m m = [] := by
  simp [changeEvents]

/-- Every event of a change names its lane. -/
theorem mem_changeEvents (l : Lane) (old new : LaneMachine) (e : Instr) (h : e ∈ changeEvents l old new) :
    e = .readyEntry l new.deck new.deckValid ∨ e = .readyChange l ∨ e = .holdSetChange l ∨ e = .gateEvaluation l ∨
      e = .laneCycleExit l := by
  simp only [changeEvents, List.mem_append, List.mem_ite_nil_right, List.mem_singleton] at h
  tauto

/-- A claim or a release changes the one cause of the one lane. -/
theorem machine_setHold (c : HoldCause) (present : Bool) (l k : Lane) (s : State) :
    (setHold c present l s).machine k =
      if k = l then { s.machine l with holds := (s.holds l).set c present } else s.machine k :=
  machine_putMachine l k _ s

/-- A claim of a cause held and a release of one not held owe nothing. -/
theorem owed_setHold (c : HoldCause) (present : Bool) (l : Lane) (s : State) :
    (setHold c present l s).owed =
      s.owed ++ (if (s.holds l).has c = present then [] else [.holdSetChange l, .gateEvaluation l]) := by
  have same : (s.holds l).has c = present ↔ s.holds l = (s.holds l).set c present := by
    cases c <;> cases present <;> cases h : s.holds l <;> simp [HoldSet.has, HoldSet.set]
  have kept : changeEvents l (s.machine l) { s.machine l with holds := (s.holds l).set c present } =
      if (s.holds l).has c = present then [] else [.holdSetChange l, .gateEvaluation l] := by
    by_cases h : (s.holds l).has c = present
    · have e := same.1 h
      rw [if_pos h, ← e]
      exact changeEvents_same l (s.machine l)
    · have e : (s.machine l).holds ≠ (s.holds l).set c present := fun x => h (same.2 x)
      simp [changeEvents, MachineState.moving, e, h]
      tauto
  show s.owed ++ _ = _
  rw [kept]

/-! ### Grants and stops (R31, R33) -/

/-- The machine record a grant leaves. -/
theorem machine_grant (l k : Lane) (kind : CycleKind) (cls : CycleClass) (fromBackup : Bool) (s : State) :
    (grant l kind cls fromBackup s).machine k =
      if k = l then (s.machine l).granted kind cls fromBackup s.mrp.params.cycleTimeout else s.machine k :=
  machine_putMachine l k _ s

/-- A stop decision outside CYCLING has no effect. -/
theorem stopLane_idle (l : Lane) (s : State) (h : (s.machine l).state ≠ .cycling) : stopLane l s = s := by
  simp [stopLane, h]

/-- The machine record a stop decision leaves. -/
theorem machine_stopLane (l k : Lane) (s : State) :
    (stopLane l s).machine k =
      if k = l ∧ (s.machine l).state = .cycling then
        { s.machine l with state := .stopping, timer := some s.mrp.params.cycleTimeout }
      else s.machine k := by
  by_cases h : (s.machine l).state = .cycling
  · have put : ∀ m : LaneMachine, (putMachine l m s).machine k = if k = l then m else s.machine k :=
      fun m => machine_putMachine l k m s
    cases hf : (s.machine l).inFlight with
    | none => simp [stopLane, h, hf, put]
    | some c =>
      have marked : ∀ (t : Byte) (u : State), (markStop l t u).machine k = u.machine k := fun _ _ => rfl
      simp [stopLane, h, hf, put, marked]
  · simp [stopLane, h]

/-! ### Pair records (R139, R140, R142, R144) -/

/-- After its evaluation a lift is what the three conditions give; nothing else of the pair records changes. -/
theorem pair_evalLift (p q : Pair) (s : State) :
    (evalLift p s).pair q = if q = p then { s.pair p with lift := liftCommand p s } else s.pair q := by
  unfold evalLift
  split
  · rename_i h
    have e : liftCommand p s = (s.pair p).lift := by simpa using h
    by_cases hq : q = p
    · subst hq
      rw [if_pos rfl, e]
    · simp [hq]
  · exact pair_putPair p q _ s

/-- After its evaluation an overdue timer is what R140 gives. -/
theorem pair_evalTimer (p q : Pair) (changed : Bool) (s : State) :
    (evalTimer p changed s).pair q =
      if q = p then { s.pair p with timer := (s.pair p).evaluatedTimer changed s.mrp.params.returnTimeout } else s.pair q :=
  pair_putPair p q _ s

/-- A latch adds its cause to the pair's set. -/
theorem pair_latch (c : FaultCause) (p q : Pair) (s : State) :
    (latch c p s).pair q = if q = p then { s.pair p with causes := (s.pair p).causes.latch c } else s.pair q := by
  unfold latch
  split
  · exact pair_putPair p q _ s
  · exact pair_putPair p q _ s

/-- A latch raises PAIR_FAULT and nothing else. -/
theorem notices_latch (c : FaultCause) (p : Pair) (s : State) :
    (latch c p s).dli = { s.dli with notices := noticesRaised (.ofPair .pairFault p) s.dli.notices } := by
  unfold latch
  split <;> rfl

/-! ### Charge records (R158, R171, R173) -/

/-- A record that enters stands at the newest end with the next sequence number. -/
theorem blu_enterLog (c : Charge) (s : State) :
    (enterLog c s).blu =
      { s.blu with log := s.blu.log ++ [⟨s.blu.nextSeq, c⟩], nextSeq := s.blu.nextSeq + 1 } := by
  unfold enterLog
  split <;> rfl

/-- A record made while the log has a place enters it. -/
theorem log_makeCharge_enters (l : Lane) (body : ChargeBody) (s : State) (h : s.blu.log.length < 256) :
    (makeCharge l body s).blu.log =
      s.blu.log ++ [⟨s.blu.nextSeq, ⟨(s.session l).id, l, s.mrp.clock, body⟩⟩] := by
  have kept : (accrue l body.accrues s).blu.log = s.blu.log ∧ (accrue l body.accrues s).blu.nextSeq = s.blu.nextSeq := by
    unfold accrue drawUnless
    dsimp only
    split <;> exact ⟨rfl, rfl⟩
  have room : (accrue l body.accrues s).blu.log.length < Config.logPlaces := by rw [kept.1]; exact h
  simp only [makeCharge, if_pos room]
  simp only [blu_enterLog, kept.1, kept.2]

/-- A record made while the log is full does not enter it. -/
theorem log_makeCharge_full (l : Lane) (body : ChargeBody) (s : State) (h : 256 ≤ s.blu.log.length) :
    (makeCharge l body s).blu.log = s.blu.log ∧ (makeCharge l body s).blu.nextSeq = s.blu.nextSeq := by
  have kept : (accrue l body.accrues s).blu.log = s.blu.log ∧ (accrue l body.accrues s).blu.nextSeq = s.blu.nextSeq := by
    unfold accrue drawUnless
    dsimp only
    split <;> exact ⟨rfl, rfl⟩
  have full : ¬ (accrue l body.accrues s).blu.log.length < Config.logPlaces := by
    rw [kept.1]
    exact Nat.not_lt.2 h
  simp only [makeCharge, if_neg full]
  split
  · exact kept
  · unfold drawUnless
    split <;> exact kept

/-! ### Owed records written after a settle (R175) -/

/-- A lane without an owed record, and any lane while the log is full, is passed over (R175). -/
theorem writeOwed_passes (l : Lane) (s : State) (h : (s.session l).owed = none ∨ 256 ≤ s.blu.log.length) : writeOwed l s = s := by
  unfold writeOwed
  split
  · rename_i c hc
    rcases h with h | h
    · simp [hc] at h
    · exact if_neg (Nat.not_lt.2 h)
  · rfl

/-- An owed record written while the log has a place: it enters with the next sequence number, LOG_HIGH is raised at the level,
the lane's session loses the record and the LOG_FULL cause, and its hold set loses LOGFULL (R175, R179). -/
theorem writeOwed_enters (l : Lane) (c : Charge) (s : State) (h : (s.session l).owed = some c) (room : s.blu.log.length < 256) :
    let t := writeOwed l s
    t.blu.log = s.blu.log ++ [⟨s.blu.nextSeq, c⟩] ∧ t.blu.nextSeq = s.blu.nextSeq + 1 ∧ t.blu.fetchPos = s.blu.fetchPos ∧
    t.dli.notices = (if s.blu.log.length < s.mrp.params.logHigh ∧ s.mrp.params.logHigh ≤ s.blu.log.length + 1 then
      noticesRaised (.ofPart .logHigh) s.dli.notices else s.dli.notices) ∧
    (∀ k, t.session k = if k = l then Session.settleCauses { s.session l with owed := none, causeLogFull := false }
      else s.session k) ∧
    (∀ k, t.machine k = if k = l then { s.machine l with holds := { s.holds l with logfull := false } } else s.machine k) ∧
    t.owed = s.owed ++ changeEvents l (s.machine l) { s.machine l with holds := { s.holds l with logfull := false } } ∧
    t.mrp = s.mrp := by
  have e : writeOwed l s = release .logfull l (putSession l
      (Session.settleCauses { (enterLog c s).session l with owed := none, causeLogFull := false }) (enterLog c s)) := by
    simp only [writeOwed, h]
    exact if_pos room
  have b : (enterLog c s).blu = { s.blu with log := s.blu.log ++ [⟨s.blu.nextSeq, c⟩], nextSeq := s.blu.nextSeq + 1 } :=
    blu_enterLog c s
  have m : ∀ k, (enterLog c s).machine k = s.machine k := fun k => by unfold enterLog; split <;> rfl
  have x : ∀ k, (enterLog c s).session k = s.session k := fun k => by unfold State.session; rw [b]
  simp only [e]
  have hh : (enterLog c s).holds l = s.holds l := congrArg LaneMachine.holds (m l)
  refine ⟨?_, ?_, ?_, ?_, ?_, ?_, ?_, ?_⟩
  · show (enterLog c s).blu.log = _
    rw [b]
  · show (enterLog c s).blu.nextSeq = _
    rw [b]
  · show (enterLog c s).blu.fetchPos = _
    rw [b]
  · show (enterLog c s).dli.notices = _
    unfold enterLog
    simp only [Bool.and_eq_true, decide_eq_true_eq]
    split <;> rfl
  · intro k
    show ((enterLog c s).blu.sessions.put l _).at k = _
    rw [Table.at_put, x]
    split
    · rfl
    · exact x k
  · intro k
    show (putMachine l _ _).machine k = _
    rw [machine_putMachine]
    show (if k = l then { (enterLog c s).machine l with holds := ((enterLog c s).holds l).set .logfull false } else (enterLog c s).machine k) = _
    rw [m, m, hh]
    rfl
  · show (enterLog c s).owed ++ changeEvents l ((enterLog c s).machine l)
      { (enterLog c s).machine l with holds := ((enterLog c s).holds l).set .logfull false } = _
    rw [m, hh]
    congr 1
    unfold enterLog; split <;> rfl
  · show (enterLog c s).mrp = _
    unfold enterLog; split <;> rfl

/-- Owed records written lane by lane: those of the first lanes that hold one enter the log while it has places, each with the
next sequence number; LOG_HIGH is raised when the count reaches the level; the lanes written lose their record, the LOG_FULL
cause and LOGFULL, and the others keep theirs (R175, R179). -/
theorem foldl_writeOwed (xs : List Lane) (nodup : xs.Nodup) (s : State) :
    let lanes := (xs.filter fun l => (s.session l).owed.isSome).take (256 - s.blu.log.length)
    let dues := lanes.filterMap fun l => (s.session l).owed
    let t := xs.foldl (fun s l => writeOwed l s) s
    t.blu.log = s.blu.log ++ dues.zipIdx.map (fun e => LogRecord.mk (s.blu.nextSeq + BitVec.ofNat 16 e.2) e.1) ∧
    t.blu.nextSeq = s.blu.nextSeq + BitVec.ofNat 16 dues.length ∧ t.blu.fetchPos = s.blu.fetchPos ∧
    t.dli.notices = (if s.blu.log.length < s.mrp.params.logHigh ∧ s.mrp.params.logHigh ≤ t.blu.log.length then
      noticesRaised (.ofPart .logHigh) s.dli.notices else s.dli.notices) ∧
    (∀ k, t.session k = if k ∈ lanes then Session.settleCauses { s.session k with owed := none, causeLogFull := false }
      else s.session k) ∧
    (∀ k, t.machine k = if k ∈ lanes then { s.machine k with holds := { s.holds k with logfull := false } } else s.machine k) ∧
    t.owed = s.owed ++ lanes.flatMap fun k =>
      changeEvents k (s.machine k) { s.machine k with holds := { s.holds k with logfull := false } } := by
  induction xs generalizing s with
  | nil =>
    have none' : ¬ (s.blu.log.length < s.mrp.params.logHigh ∧ s.mrp.params.logHigh ≤ s.blu.log.length) := by omega
    simp [none']
  | cons l xs ih =>
    obtain ⟨hl, hx⟩ := List.nodup_cons.mp nodup
    intro lanes dues t
    have rec' := ih hx (writeOwed l s)
    by_cases full : 256 ≤ s.blu.log.length
    · have e := writeOwed_passes l s (.inr full)
      have z : 256 - s.blu.log.length = 0 := by omega
      simp only [e, z, List.take_zero] at rec'
      simp only [dues, lanes, t, z, List.take_zero, List.foldl_cons, e]
      exact rec'
    · cases h : (s.session l).owed with
      | none =>
        have e := writeOwed_passes l s (.inl h)
        simp only [e] at rec'
        simp only [dues, lanes, t, List.foldl_cons, e, List.filter_cons, h, Option.isSome_none, Bool.false_eq_true, if_false]
        exact rec'
      | some c =>
        have room : s.blu.log.length < 256 := by omega
        obtain ⟨e1, e2, e3, e4, e5, e6, e8, e7⟩ := writeOwed_enters l c s h room
        have other : ∀ k ∈ xs, ((writeOwed l s).session k).owed = (s.session k).owed := fun k hk => by
          rw [e5, if_neg fun e : k = l => hl (e ▸ hk)]
        have len : (writeOwed l s).blu.log.length = s.blu.log.length + 1 := by rw [e1]; simp
        have filt : xs.filter (fun k => ((writeOwed l s).session k).owed.isSome) = xs.filter fun k => (s.session k).owed.isSome :=
          List.filter_congr fun k hk => by rw [other k hk]
        have due : ∀ ys : List Lane, (∀ k ∈ ys, k ∈ xs) →
            ys.filterMap (fun k => ((writeOwed l s).session k).owed) = ys.filterMap fun k => (s.session k).owed := fun ys hy =>
          List.filterMap_congr fun k hk => other k (hy k hk)
        have sub : ∀ n, ∀ k ∈ (xs.filter fun k => (s.session k).owed.isSome).take n, k ∈ xs := fun n k hk =>
          List.mem_of_mem_filter (List.mem_of_mem_take hk)
        have places : 256 - s.blu.log.length = (256 - (s.blu.log.length + 1)) + 1 := by omega
        simp only [filt, len, due _ (sub _)] at rec'
        obtain ⟨r1, r2, r3, r4, r5, r6, r8⟩ := rec'
        have el : lanes = l :: (xs.filter fun k => (s.session k).owed.isSome).take (256 - (s.blu.log.length + 1)) := by
          simp [lanes, h, places]
        have ed : dues = c :: ((xs.filter fun k => (s.session k).owed.isSome).take (256 - (s.blu.log.length + 1))).filterMap
            fun k => (s.session k).owed := by
          simp [dues, el, h]
        have et : t = xs.foldl (fun s l => writeOwed l s) (writeOwed l s) := rfl
        have grow : s.blu.log.length + 1 ≤ t.blu.log.length := by rw [et, r1, e1]; simp
        have apart : ∀ n, ∀ k ∈ (xs.filter fun k => (s.session k).owed.isSome).take n, k ≠ l := fun n k hk e => hl (e ▸ sub n k hk)
        have hh : ∀ j, j ≠ l → (writeOwed l s).holds j = s.holds j := fun j hj => by
          show ((writeOwed l s).machine j).holds = _
          rw [e6, if_neg hj]; rfl
        refine ⟨?_, ?_, ?_, ?_, ?_, ?_, ?_⟩
        · rw [et, r1, e1, e2, ed, List.zipIdx_cons, List.map_cons, List.append_assoc, List.zipIdx_succ, List.map_map]
          have next : ∀ b : Nat, s.blu.nextSeq + 1#16 + BitVec.ofNat 16 b = s.blu.nextSeq + BitVec.ofNat 16 (b + 1) := fun b => by
            rw [BitVec.ofNat_add, BitVec.add_assoc, BitVec.add_comm 1#16]
          simp only [Function.comp_def, next, List.singleton_append, BitVec.add_zero, BitVec.ofNat_eq_ofNat]
        · rw [et, r2, e2, ed, List.length_cons, BitVec.add_assoc]
          congr 1
          rw [BitVec.ofNat_add, BitVec.add_comm]
          rfl
        · rw [et, r3, e3]
        · rw [et, r4, e4, e7, ← et]
          by_cases a : s.blu.log.length < s.mrp.params.logHigh ∧ s.mrp.params.logHigh ≤ s.blu.log.length + 1
          · rw [if_pos a, if_neg (by omega), if_pos (by omega)]
          · rw [if_neg a]
            congr 1
            simp only [eq_iff_iff]
            omega
        · intro k
          rw [et, r5, e5, el]
          by_cases hk : k = l
          · subst hk
            simp only [List.mem_cons, true_or, if_true]
            rw [if_neg fun m => hl (sub _ _ m)]
          · simp [hk]
        · intro k
          rw [et, r6, el]
          by_cases hk : k = l
          · subst hk
            simp only [List.mem_cons, true_or, if_true]
            rw [if_neg fun m => hl (sub _ _ m), e6, if_pos rfl]
          · simp [hk, e6, hh]
        · rw [et, r8, e8, el, List.flatMap_cons, List.append_assoc]
          congr 2
          exact List.flatMap_congr fun k hk => by rw [e6, if_neg (apart _ k hk), hh k (apart _ k hk)]

end Sys2Proof.Laws
end

