-- ==== Sys2Proof/Laws/Requests.lean ====
section
/-! SUPPORT. Laws/Requests.lean: what taking a management request does, once for all requests: its frame, its condition table and its one response (R13, R181). -/

namespace Sys2Proof.Laws

open Sys2Proof.Machine

/-! ### Condition tables -/

@[simp] theorem firstRow_nil : firstRow [] = none := rfl

@[simp] theorem firstRow_true (r : Result) (rows : List (Bool × Result)) : firstRow ((true, r) :: rows) = some r := rfl

@[simp] theorem firstRow_false (r : Result) (rows : List (Bool × Result)) :
    firstRow ((false, r) :: rows) = firstRow rows := rfl

/-- A table gives no result exactly when none of its rows applies. -/
theorem firstRow_none_iff (rows : List (Bool × Result)) : firstRow rows = none ↔ ∀ x ∈ rows, x.1 = false := by
  induction rows with
  | nil => simp
  | cons x rows ih =>
    obtain ⟨c, r⟩ := x
    cases c <;> simp [firstRow, ih]

/-- The result a table gives is a result of one of its rows that applies. -/
theorem firstRow_some (rows : List (Bool × Result)) (r : Result) (h : firstRow rows = some r) : (true, r) ∈ rows := by
  induction rows with
  | nil => simp at h
  | cons x rows ih =>
    obtain ⟨c, q⟩ := x
    cases c
    · exact List.mem_cons_of_mem _ (ih (by simpa using h))
    · simp only [firstRow_true, Option.some.injEq] at h
      simp [h]

/-- A request that a row of its table turns away changes nothing (R181). -/
theorem judge_refused {rows : List (Bool × Result)} {r : Result} (effect : State → State × List Byte) (s : State)
    (h : firstRow rows = some r) : judge rows effect s = (s, r, []) := by simp [judge, h]

/-- A request that no row turns away has its effect. -/
theorem judge_accepted {rows : List (Bool × Result)} (effect : State → State × List Byte) (s : State)
    (h : firstRow rows = none) : judge rows effect s = ((effect s).1, .ok, (effect s).2) := by simp [judge, h]

/-! ### The frame and the response -/

/-- Taking the head of the receive queue changes nothing but the receive queue. -/
@[simp] theorem takeHead_keeps (c : Instr) (s : State) :
    (takeHead c s).lli = s.lli ∧ (takeHead c s).dli.tx = s.dli.tx ∧ (takeHead c s).dli.notices = s.dli.notices ∧
    (takeHead c s).dli.linkErrors = s.dli.linkErrors ∧ (takeHead c s).frr = s.frr ∧ (takeHead c s).psv = s.psv ∧
    (takeHead c s).cdp = s.cdp ∧ (takeHead c s).sce = s.sce ∧ (takeHead c s).brm = s.brm ∧ (takeHead c s).blu = s.blu ∧
    (takeHead c s).mrp = s.mrp ∧ (takeHead c s).owed = s.owed ∧ (takeHead c s).pending = s.pending ∧
    (takeHead c s).draws = s.draws := by
  unfold takeHead
  split
  · split <;> exact ⟨rfl, rfl, rfl, rfl, rfl, rfl, rfl, rfl, rfl, rfl, rfl, rfl, rfl, rfl⟩
  · exact ⟨rfl, rfl, rfl, rfl, rfl, rfl, rfl, rfl, rfl, rfl, rfl, rfl, rfl, rfl⟩

/-- The frame a command comes from leaves the head of the queue. -/
theorem takeHead_of_head (f : DeskFrame) (rest : List DeskFrame) (s : State) (h : s.dli.rx = f :: rest) :
    takeHead (commandOfFrame f) s = { s with dli := { s.dli with rx := rest } } := by
  simp [takeHead, h]

/-- A command that the head of the queue does not bring leaves the queue as it stands. -/
theorem takeHead_of_other (c : Instr) (s : State) (h : ∀ f rest, s.dli.rx = f :: rest → commandOfFrame f ≠ c) :
    takeHead c s = s := by
  unfold takeHead
  split
  · rename_i f rest hr
    simp [h f rest hr]
  · rfl

/-- With eight responses queued a request is not taken and nothing changes (R13). -/
theorem answer_full (c : Instr) (tag : BitVec 16) (code : Nat) (run : State → State × Result × List Byte) (s : State)
    (h : 8 ≤ s.responsesQueued) : answer c tag code run s = s := by
  simp [answer, Config.responsePlaces, Nat.not_lt.mpr h]

/-- A request taken is run on the state its frame has left, and its response placed (R13, R181). -/
theorem answer_taken (c : Instr) (tag : BitVec 16) (code : Nat) (run : State → State × Result × List Byte) (s : State)
    (h : s.responsesQueued < 8) :
    answer c tag code run s =
      respond tag code (run (takeHead c s)).2.1 (run (takeHead c s)).2.2 (run (takeHead c s)).1 := by
  simp [answer, Config.responsePlaces, h]

/-- What a request taken answers when a row of its table applies. -/
theorem answer_refused (c : Instr) (tag : BitVec 16) (code : Nat) (rows : State → List (Bool × Result))
    (effect : State → State × List Byte) (s : State) (r : Result) (h : s.responsesQueued < 8)
    (hr : firstRow (rows (takeHead c s)) = some r) :
    answer c tag code (fun s => judge (rows s) effect s) s = respond tag code r [] (takeHead c s) := by
  rw [answer_taken _ _ _ _ _ h]
  simp [judge_refused effect _ hr]

/-- What a request taken answers when no row of its table applies. -/
theorem answer_accepted (c : Instr) (tag : BitVec 16) (code : Nat) (rows : State → List (Bool × Result))
    (effect : State → State × List Byte) (s : State) (h : s.responsesQueued < 8)
    (hr : firstRow (rows (takeHead c s)) = none) :
    answer c tag code (fun s => judge (rows s) effect s) s =
      respond tag code .ok (effect (takeHead c s)).2 (effect (takeHead c s)).1 := by
  rw [answer_taken _ _ _ _ _ h]
  simp [judge_accepted effect _ hr]

/-- A field outside the lanes names none, and a checked field names its lane. -/
theorem noLane_iff (b : Byte) : noLane b = true ↔ laneOf b.toNat = none := by simp [noLane]

theorem laneAt_of (b : Byte) (l : Lane) (h : laneOf b.toNat = some l) : noLane b = false ∧ laneAt b = l := by
  simp [noLane, laneAt, h]

/-- A field outside the pairs names none, and a checked field names its pair. -/
theorem noPair_iff (b : Byte) : noPair b = true ↔ pairNumbered b.toNat = none := by simp [noPair]

theorem pairAt_of (b : Byte) (p : Pair) (h : pairNumbered b.toNat = some p) : noPair b = false ∧ pairAt b = p := by
  simp [noPair, pairAt, h]

/-- A field outside the slots names none, and a checked field names its slot. -/
theorem noSlot_iff (b : Byte) : noSlot b = true ↔ slotOf b.toNat = none := by simp [noSlot]

theorem slotAt_of (b : Byte) (k : Slot) (h : slotOf b.toNat = some k) : noSlot b = false ∧ slotAt b = k := by
  simp [noSlot, slotAt, h]

/-- A checked tariff index names its tariff. -/
theorem tariffAt_of (b : Byte) (i : TariffIndex) (h : tariffOf b.toNat = some i) : b.toNat ≤ 15 ∧ tariffAt b = i := by
  refine ⟨?_, by simp [tariffAt, h]⟩
  unfold tariffOf at h
  split at h
  · assumption
  · exact absurd h (by simp)

end Sys2Proof.Laws
end

