-- ==== Sys2Proof/Laws/Writes.lean ====
section
/-! SUPPORT. Laws/Writes.lean: which pieces of the state each operation, each effect and each command may write, one lemma each: everything else stands as it was. -/

set_option linter.unusedSimpArgs false
set_option linter.unusedTactic false
set_option linter.unreachableTactic false

namespace Sys2Proof.Laws

open Sys2Proof.Machine

/-- The pieces of the state that a lemma of this file speaks of. -/
inductive Piece where
  /-- The forward-down queue. -/
  | forwardDown
  /-- The downstream line. -/
  | line
  /-- The marks, the CYCLE list and the console traffic. -/
  | marks
  /-- The desk receive queue. -/
  | rx
  /-- The desk transmit queue. -/
  | tx
  /-- The pending notice list. -/
  | notices
  /-- The link error set. -/
  | linkErrors
  /-- The lane entries. -/
  | lanes
  /-- The pair entries. -/
  | pairs
  /-- The disposition table. -/
  | dispositions
  /-- The refusal records. -/
  | refusals
  /-- The lane machine records. -/
  | psv
  /-- The batch queue. -/
  | batch
  /-- The other requests of the Cycle Dispatcher. -/
  | requests
  /-- The delivery records. -/
  | deliveries
  /-- The team contexts. -/
  | teams
  /-- The pair modes. -/
  | modes
  /-- The correction slots. -/
  | corrections
  /-- The pair records. -/
  | brm
  /-- The tariffs. -/
  | tariffs
  /-- The session records. -/
  | sessions
  /-- The charge log. -/
  | log
  /-- The part state. -/
  | part
  /-- The parameters. -/
  | params
  /-- The centre clock. -/
  | clock
  /-- The Halt Line controller. -/
  | halt
  /-- The owed events. -/
  | owed
  /-- The commands waiting. -/
  | pending
  /-- The counter of free values. -/
  | draws
  deriving DecidableEq, Repr

/-- Whether every piece of `k` is one of `w`. -/
def within (k w : List Piece) : Bool := k.all fun p => decide (p ∈ w)

theorem within_refl (w : List Piece) : within w w = true := by simp [within]

/-- From `s` to `t` nothing outside the pieces `w` has changed. -/
structure Only (w : List Piece) (s t : State) : Prop where
  forwardDown : Piece.forwardDown ∉ w → t.lli.forwardDown = s.lli.forwardDown
  line : Piece.line ∉ w → t.lli.line = s.lli.line
  marks : Piece.marks ∉ w → t.lli.stopMarks = s.lli.stopMarks ∧ t.lli.cycleList = s.lli.cycleList ∧ t.lli.liftMarks = s.lli.liftMarks ∧ t.lli.probeMarks = s.lli.probeMarks ∧ t.lli.console = s.lli.console ∧ t.lli.consolePointer = s.lli.consolePointer ∧ t.lli.consoleHadTurn = s.lli.consoleHadTurn
  rx : Piece.rx ∉ w → t.dli.rx = s.dli.rx
  tx : Piece.tx ∉ w → t.dli.tx = s.dli.tx
  notices : Piece.notices ∉ w → t.dli.notices = s.dli.notices
  linkErrors : Piece.linkErrors ∉ w → t.dli.linkErrors = s.dli.linkErrors
  lanes : Piece.lanes ∉ w → t.frr.lanes = s.frr.lanes
  pairs : Piece.pairs ∉ w → t.frr.pairs = s.frr.pairs
  dispositions : Piece.dispositions ∉ w → t.frr.dispositions = s.frr.dispositions
  refusals : Piece.refusals ∉ w → t.frr.laneRefusals = s.frr.laneRefusals ∧ t.frr.partRefusal = s.frr.partRefusal
  psv : Piece.psv ∉ w → t.psv = s.psv
  batch : Piece.batch ∉ w → t.cdp.batch = s.cdp.batch
  requests : Piece.requests ∉ w → t.cdp.auto = s.cdp.auto ∧ t.cdp.pointer = s.cdp.pointer ∧ t.cdp.inject = s.cdp.inject ∧ t.cdp.backups = s.cdp.backups ∧ t.cdp.discardOnAbort = s.cdp.discardOnAbort
  deliveries : Piece.deliveries ∉ w → t.sce.deliveries = s.sce.deliveries
  teams : Piece.teams ∉ w → t.sce.teams = s.sce.teams
  modes : Piece.modes ∉ w → t.sce.modes = s.sce.modes
  corrections : Piece.corrections ∉ w → t.sce.corrections = s.sce.corrections
  brm : Piece.brm ∉ w → t.brm = s.brm
  tariffs : Piece.tariffs ∉ w → t.blu.tariffs = s.blu.tariffs
  sessions : Piece.sessions ∉ w → t.blu.sessions = s.blu.sessions
  log : Piece.log ∉ w → t.blu.log = s.blu.log ∧ t.blu.nextSeq = s.blu.nextSeq ∧ t.blu.fetchPos = s.blu.fetchPos
  part : Piece.part ∉ w → t.mrp.part = s.mrp.part
  params : Piece.params ∉ w → t.mrp.params = s.mrp.params
  clock : Piece.clock ∉ w → t.mrp.clock = s.mrp.clock ∧ t.mrp.clockSet = s.mrp.clockSet
  halt : Piece.halt ∉ w → t.mrp.halt = s.mrp.halt
  owed : Piece.owed ∉ w → t.owed = s.owed
  pending : Piece.pending ∉ w → t.pending = s.pending
  draws : Piece.draws ∉ w → t.draws = s.draws

theorem Only.refl (w : List Piece) (s : State) : Only w s s := by
  constructor <;> intro _ <;> simp

/-- A change within `w` followed by a change within a part of `w` is a change within `w`. -/
theorem Only.andThen {w k : List Piece} {s t u : State} (h : Only w s t) (g : Only k t u)
    (sub : within k w = true) : Only w s u := by
  have hs : ∀ p, p ∉ w → p ∉ k := by
    intro p hp hk
    have := List.all_eq_true.mp sub p hk
    exact hp (of_decide_eq_true this)
  constructor
  · exact fun hp => (g.forwardDown (hs _ hp)).trans (h.forwardDown hp)
  · exact fun hp => (g.line (hs _ hp)).trans (h.line hp)
  · intro hp; have a := h.marks hp; have b := g.marks (hs _ hp); simp only [b, a]; simp
  · exact fun hp => (g.rx (hs _ hp)).trans (h.rx hp)
  · exact fun hp => (g.tx (hs _ hp)).trans (h.tx hp)
  · exact fun hp => (g.notices (hs _ hp)).trans (h.notices hp)
  · exact fun hp => (g.linkErrors (hs _ hp)).trans (h.linkErrors hp)
  · exact fun hp => (g.lanes (hs _ hp)).trans (h.lanes hp)
  · exact fun hp => (g.pairs (hs _ hp)).trans (h.pairs hp)
  · exact fun hp => (g.dispositions (hs _ hp)).trans (h.dispositions hp)
  · intro hp; have a := h.refusals hp; have b := g.refusals (hs _ hp); simp only [b, a]; simp
  · exact fun hp => (g.psv (hs _ hp)).trans (h.psv hp)
  · exact fun hp => (g.batch (hs _ hp)).trans (h.batch hp)
  · intro hp; have a := h.requests hp; have b := g.requests (hs _ hp); simp only [b, a]; simp
  · exact fun hp => (g.deliveries (hs _ hp)).trans (h.deliveries hp)
  · exact fun hp => (g.teams (hs _ hp)).trans (h.teams hp)
  · exact fun hp => (g.modes (hs _ hp)).trans (h.modes hp)
  · exact fun hp => (g.corrections (hs _ hp)).trans (h.corrections hp)
  · exact fun hp => (g.brm (hs _ hp)).trans (h.brm hp)
  · exact fun hp => (g.tariffs (hs _ hp)).trans (h.tariffs hp)
  · exact fun hp => (g.sessions (hs _ hp)).trans (h.sessions hp)
  · intro hp; have a := h.log hp; have b := g.log (hs _ hp); simp only [b, a]; simp
  · exact fun hp => (g.part (hs _ hp)).trans (h.part hp)
  · exact fun hp => (g.params (hs _ hp)).trans (h.params hp)
  · intro hp; have a := h.clock hp; have b := g.clock (hs _ hp); simp only [b, a]; simp
  · exact fun hp => (g.halt (hs _ hp)).trans (h.halt hp)
  · exact fun hp => (g.owed (hs _ hp)).trans (h.owed hp)
  · exact fun hp => (g.pending (hs _ hp)).trans (h.pending hp)
  · exact fun hp => (g.draws (hs _ hp)).trans (h.draws hp)

theorem Only.mono {k w : List Piece} {s t : State} (h : Only k s t)
    (sub : within k w = true) : Only w s t := (Only.refl w s).andThen h sub

theorem Only.ite {w : List Piece} {s t u : State} {c : Prop} [Decidable c] (h : Only w s t) (g : Only w s u) :
    Only w s (if c then t else u) := by
  split
  · exact h
  · exact g

theorem Only.forLanes {w : List Piece} {s t : State} {f : Lane → State → State} (h : Only w s t)
    (hf : ∀ l u, Only w u (f l u)) : Only w s (forLanes f t) := by
  unfold Machine.forLanes
  generalize allLanes = xs
  induction xs generalizing t with
  | nil => exact h
  | cons x xs ih => exact ih (h.andThen (hf x t) (within_refl w))

theorem Only.forPairs {w : List Piece} {s t : State} {f : Pair → State → State} (h : Only w s t)
    (hf : ∀ p u, Only w u (f p u)) : Only w s (forPairs f t) := by
  unfold Machine.forPairs
  generalize allPairs = xs
  induction xs generalizing t with
  | nil => exact h
  | cons x xs ih => exact ih (h.andThen (hf x t) (within_refl w))

theorem batchReplaced_only {w : List Piece} {s t : State} (q : List BatchEntry) (hw : within [.batch] w = true)
    (h : Only w s t) : Only w s (setDispatcher { t.cdp with batch := q } t) := by
  refine h.andThen (k := [.batch]) ?_ hw
  constructor <;> first | (intro _; simp; done) | (intro h; exact absurd (by decide) h)

theorem autoGranted_only {w : List Piece} {s t : State} (l : Lane) (a : Table 32 (Option AutoRequest))
    (hw : within [.requests] w = true) (h : Only w s t) :
    Only w s (setDispatcher { t.cdp with auto := a, pointer := l } t) := by
  refine h.andThen (k := [.requests]) ?_ hw
  constructor <;> first | (intro _; simp; done) | (intro h; exact absurd (by decide) h)

theorem backupGranted_only {w : List Piece} {s t : State} (l : Lane) (b : Table 32 (Option Backup))
    (hw : within [.requests] w = true) (h : Only w s t) :
    Only w s (setDispatcher { t.cdp with backups := b, pointer := l } t) := by
  refine h.andThen (k := [.requests]) ?_ hw
  constructor <;> first | (intro _; simp; done) | (intro h; exact absurd (by decide) h)

theorem dispatcherReplaced_only {w : List Piece} {s t : State} (x : Dispatcher)
    (hw : within [.batch, .requests] w = true) (h : Only w s t) : Only w s (setDispatcher x t) := by
  refine h.andThen (k := [.batch, .requests]) ?_ hw
  constructor <;> first | (intro _; simp; done) | (intro h; exact absurd (by decide) h)

theorem forwardDownReplaced_only {w : List Piece} {s t : State} (q : List LaneFrame)
    (hw : within [.forwardDown] w = true) (h : Only w s t) :
    Only w s (setLink { t.lli with forwardDown := q } t) := by
  refine h.andThen (k := [.forwardDown]) ?_ hw
  constructor <;> first | (intro _; simp; done) | (intro h; exact absurd (by decide) h)

theorem oweAll_only (cs : List Instr) {w : List Piece} {s t : State} (hw : within [.owed] w = true) (h : Only w s t) :
    Only w s (oweAll cs t) := by
  refine h.andThen (k := [.owed]) ?_ hw
  unfold oweAll
  constructor <;> first | (intro _; simp; done) | (intro h; exact absurd (by decide) h)

theorem owe_only (c : Instr) {w : List Piece} {s t : State} (hw : within [.owed] w = true) (h : Only w s t) :
    Only w s (owe c t) := by
  refine h.andThen (k := [.owed]) ?_ hw
  unfold owe
  simp (maxDischargeDepth := 60) (decide := true) only [oweAll_only, Only.refl, Only.ite]

theorem take_only (c : Instr) {w : List Piece} {s t : State} (hw : within [.owed] w = true) (h : Only w s t) :
    Only w s (take c t) := by
  refine h.andThen (k := [.owed]) ?_ hw
  unfold take
  constructor <;> first | (intro _; simp; done) | (intro h; exact absurd (by decide) h)

theorem raise_only (n : Notice) {w : List Piece} {s t : State} (hw : within [.notices] w = true) (h : Only w s t) :
    Only w s (raise n t) := by
  refine h.andThen (k := [.notices]) ?_ hw
  unfold raise
  constructor <;> first | (intro _; simp; done) | (intro h; exact absurd (by decide) h)

theorem withdraw_only (n : Notice) {w : List Piece} {s t : State} (hw : within [.notices] w = true) (h : Only w s t) :
    Only w s (withdraw n t) := by
  refine h.andThen (k := [.notices]) ?_ hw
  unfold withdraw
  constructor <;> first | (intro _; simp; done) | (intro h; exact absurd (by decide) h)

theorem raiseLane_only (k : LaneNoticeKind) (l : Lane) {w : List Piece} {s t : State} (hw : within [.notices] w = true) (h : Only w s t) :
    Only w s (raiseLane k l t) := by
  refine h.andThen (k := [.notices]) ?_ hw
  unfold raiseLane
  simp (maxDischargeDepth := 60) (decide := true) only [raise_only, Only.refl, Only.ite]

theorem raisePair_only (k : PairNoticeKind) (p : Pair) {w : List Piece} {s t : State} (hw : within [.notices] w = true) (h : Only w s t) :
    Only w s (raisePair k p t) := by
  refine h.andThen (k := [.notices]) ?_ hw
  unfold raisePair
  simp (maxDischargeDepth := 60) (decide := true) only [raise_only, Only.refl, Only.ite]

theorem raisePart_only (k : PartNoticeKind) {w : List Piece} {s t : State} (hw : within [.notices] w = true) (h : Only w s t) :
    Only w s (raisePart k t) := by
  refine h.andThen (k := [.notices]) ?_ hw
  unfold raisePart
  simp (maxDischargeDepth := 60) (decide := true) only [raise_only, Only.refl, Only.ite]

theorem withdrawLane_only (k : LaneNoticeKind) (l : Lane) {w : List Piece} {s t : State} (hw : within [.notices] w = true) (h : Only w s t) :
    Only w s (withdrawLane k l t) := by
  refine h.andThen (k := [.notices]) ?_ hw
  unfold withdrawLane
  simp (maxDischargeDepth := 60) (decide := true) only [withdraw_only, Only.refl, Only.ite]

theorem withdrawPair_only (k : PairNoticeKind) (p : Pair) {w : List Piece} {s t : State} (hw : within [.notices] w = true) (h : Only w s t) :
    Only w s (withdrawPair k p t) := by
  refine h.andThen (k := [.notices]) ?_ hw
  unfold withdrawPair
  simp (maxDischargeDepth := 60) (decide := true) only [withdraw_only, Only.refl, Only.ite]

theorem withdrawPart_only (k : PartNoticeKind) {w : List Piece} {s t : State} (hw : within [.notices] w = true) (h : Only w s t) :
    Only w s (withdrawPart k t) := by
  refine h.andThen (k := [.notices]) ?_ hw
  unfold withdrawPart
  simp (maxDischargeDepth := 60) (decide := true) only [withdraw_only, Only.refl, Only.ite]

theorem linkError_only (e : LinkError) {w : List Piece} {s t : State} (hw : within [.notices, .linkErrors] w = true) (h : Only w s t) :
    Only w s (linkError e t) := by
  refine h.andThen (k := [.notices, .linkErrors]) ?_ hw
  unfold linkError
  constructor <;> first | (intro _; simp; done) | (intro h; exact absurd (by decide) h)

theorem placeDesk_only (f : DeskFrame) {w : List Piece} {s t : State} (hw : within [.tx] w = true) (h : Only w s t) :
    Only w s (placeDesk f t) := by
  refine h.andThen (k := [.tx]) ?_ hw
  unfold placeDesk
  constructor <;> first | (intro _; simp; done) | (intro h; exact absurd (by decide) h)

theorem offerCopy_only (f : LaneFrame) {w : List Piece} {s t : State} (hw : within [.tx] w = true) (h : Only w s t) :
    Only w s (offerCopy f t) := by
  refine h.andThen (k := [.tx]) ?_ hw
  unfold offerCopy
  simp (maxDischargeDepth := 60) (decide := true) only [placeDesk_only, Only.refl, Only.ite]

theorem markStop_only (l : Lane) (tag : Byte) {w : List Piece} {s t : State} (hw : within [.marks] w = true) (h : Only w s t) :
    Only w s (markStop l tag t) := by
  refine h.andThen (k := [.marks]) ?_ hw
  unfold markStop
  constructor <;> first | (intro _; simp; done) | (intro h; exact absurd (by decide) h)

theorem clearStop_only (l : Lane) {w : List Piece} {s t : State} (hw : within [.marks] w = true) (h : Only w s t) :
    Only w s (clearStop l t) := by
  refine h.andThen (k := [.marks]) ?_ hw
  unfold clearStop
  constructor <;> first | (intro _; simp; done) | (intro h; exact absurd (by decide) h)

theorem listCycle_only (l : Lane) (tag : Byte) {w : List Piece} {s t : State} (hw : within [.marks] w = true) (h : Only w s t) :
    Only w s (listCycle l tag t) := by
  refine h.andThen (k := [.marks]) ?_ hw
  unfold listCycle
  constructor <;> first | (intro _; simp; done) | (intro h; exact absurd (by decide) h)

theorem setLiftMark_only (p : Pair) (b : Bool) {w : List Piece} {s t : State} (hw : within [.marks] w = true) (h : Only w s t) :
    Only w s (setLiftMark p b t) := by
  refine h.andThen (k := [.marks]) ?_ hw
  unfold setLiftMark
  constructor <;> first | (intro _; simp; done) | (intro h; exact absurd (by decide) h)

theorem setProbeMark_only (l : Lane) (b : Bool) {w : List Piece} {s t : State} (hw : within [.marks] w = true) (h : Only w s t) :
    Only w s (setProbeMark l b t) := by
  refine h.andThen (k := [.marks]) ?_ hw
  unfold setProbeMark
  constructor <;> first | (intro _; simp; done) | (intro h; exact absurd (by decide) h)

theorem setConsole_only (l : Lane) (c : Console) {w : List Piece} {s t : State} (hw : within [.marks] w = true) (h : Only w s t) :
    Only w s (setConsole l c t) := by
  refine h.andThen (k := [.marks]) ?_ hw
  unfold setConsole
  constructor <;> first | (intro _; simp; done) | (intro h; exact absurd (by decide) h)

theorem markStale_only (l : Lane) {w : List Piece} {s t : State} (hw : within [.marks] w = true) (h : Only w s t) :
    Only w s (markStale l t) := by
  refine h.andThen (k := [.marks]) ?_ hw
  unfold markStale
  simp (maxDischargeDepth := 60) (decide := true) only [setConsole_only, Only.refl, Only.ite]

theorem raiseConsole_only (c : ConsoleCode) (l : Lane) {w : List Piece} {s t : State} (hw : within [.marks] w = true) (h : Only w s t) :
    Only w s (raiseConsole c l t) := by
  refine h.andThen (k := [.marks]) ?_ hw
  unfold raiseConsole
  dsimp only
  simp (maxDischargeDepth := 60) (decide := true) only [setConsole_only, Only.refl, Only.ite]

theorem storeMachine_only (l : Lane) (m : LaneMachine) {w : List Piece} {s t : State} (hw : within [.psv] w = true) (h : Only w s t) :
    Only w s (storeMachine l m t) := by
  refine h.andThen (k := [.psv]) ?_ hw
  unfold storeMachine
  constructor <;> first | (intro _; simp; done) | (intro h; exact absurd (by decide) h)

theorem putMachine_only (l : Lane) (m : LaneMachine) {w : List Piece} {s t : State} (hw : within [.psv, .owed] w = true) (h : Only w s t) :
    Only w s (putMachine l m t) := by
  refine h.andThen (k := [.psv, .owed]) ?_ hw
  unfold putMachine
  simp (maxDischargeDepth := 60) (decide := true) only [oweAll_only, storeMachine_only, Only.refl, Only.ite]

theorem setHold_only (c : HoldCause) (present : Bool) (l : Lane) {w : List Piece} {s t : State} (hw : within [.psv, .owed] w = true) (h : Only w s t) :
    Only w s (setHold c present l t) := by
  refine h.andThen (k := [.psv, .owed]) ?_ hw
  unfold setHold
  simp (maxDischargeDepth := 60) (decide := true) only [putMachine_only, Only.refl, Only.ite]

theorem claim_only (c : HoldCause) (l : Lane) {w : List Piece} {s t : State} (hw : within [.psv, .owed] w = true) (h : Only w s t) :
    Only w s (claim c l t) := by
  refine h.andThen (k := [.psv, .owed]) ?_ hw
  unfold claim
  simp (maxDischargeDepth := 60) (decide := true) only [setHold_only, Only.refl, Only.ite]

theorem release_only (c : HoldCause) (l : Lane) {w : List Piece} {s t : State} (hw : within [.psv, .owed] w = true) (h : Only w s t) :
    Only w s (release c l t) := by
  refine h.andThen (k := [.psv, .owed]) ?_ hw
  unfold release
  simp (maxDischargeDepth := 60) (decide := true) only [setHold_only, Only.refl, Only.ite]

theorem setAuto_only (l : Lane) (a : Option AutoRequest) {w : List Piece} {s t : State} (hw : within [.requests] w = true) (h : Only w s t) :
    Only w s (setAuto l a t) := by
  refine h.andThen (k := [.requests]) ?_ hw
  unfold setAuto
  constructor <;> first | (intro _; simp; done) | (intro h; exact absurd (by decide) h)

theorem setBackup_only (l : Lane) (b : Option Backup) {w : List Piece} {s t : State} (hw : within [.requests] w = true) (h : Only w s t) :
    Only w s (setBackup l b t) := by
  refine h.andThen (k := [.requests]) ?_ hw
  unfold setBackup
  constructor <;> first | (intro _; simp; done) | (intro h; exact absurd (by decide) h)

theorem setInject_only (r : Option InjectRequest) {w : List Piece} {s t : State} (hw : within [.requests] w = true) (h : Only w s t) :
    Only w s (setInject r t) := by
  refine h.andThen (k := [.requests]) ?_ hw
  unfold setInject
  constructor <;> first | (intro _; simp; done) | (intro h; exact absurd (by decide) h)

theorem setDiscard_only (l : Lane) (b : Bool) {w : List Piece} {s t : State} (hw : within [.requests] w = true) (h : Only w s t) :
    Only w s (setDiscard l b t) := by
  refine h.andThen (k := [.requests]) ?_ hw
  unfold setDiscard
  constructor <;> first | (intro _; simp; done) | (intro h; exact absurd (by decide) h)

theorem setDelivery_only (l : Lane) (d : Option Delivery) {w : List Piece} {s t : State} (hw : within [.deliveries] w = true) (h : Only w s t) :
    Only w s (setDelivery l d t) := by
  refine h.andThen (k := [.deliveries]) ?_ hw
  unfold setDelivery
  constructor <;> first | (intro _; simp; done) | (intro h; exact absurd (by decide) h)

theorem setTeam_only (k : Slot) (t : Option Team) {w : List Piece} {s u : State} (hw : within [.teams] w = true) (h : Only w s u) :
    Only w s (setTeam k t u) := by
  refine h.andThen (k := [.teams]) ?_ hw
  unfold setTeam
  constructor <;> first | (intro _; simp; done) | (intro h; exact absurd (by decide) h)

theorem setMode_only (p : Pair) (m : PairMode) {w : List Piece} {s t : State} (hw : within [.modes] w = true) (h : Only w s t) :
    Only w s (setMode p m t) := by
  refine h.andThen (k := [.modes]) ?_ hw
  unfold setMode
  constructor <;> first | (intro _; simp; done) | (intro h; exact absurd (by decide) h)

theorem setCorrection_only (l : Lane) (c : Option Correction) {w : List Piece} {s t : State} (hw : within [.corrections] w = true) (h : Only w s t) :
    Only w s (setCorrection l c t) := by
  refine h.andThen (k := [.corrections]) ?_ hw
  unfold setCorrection
  constructor <;> first | (intro _; simp; done) | (intro h; exact absurd (by decide) h)

theorem putPair_only (p : Pair) (r : PairRecord) {w : List Piece} {s t : State} (hw : within [.brm] w = true) (h : Only w s t) :
    Only w s (putPair p r t) := by
  refine h.andThen (k := [.brm]) ?_ hw
  unfold putPair
  constructor <;> first | (intro _; simp; done) | (intro h; exact absurd (by decide) h)

theorem putSession_only (l : Lane) (x : Session) {w : List Piece} {s t : State} (hw : within [.sessions] w = true) (h : Only w s t) :
    Only w s (putSession l x t) := by
  refine h.andThen (k := [.sessions]) ?_ hw
  unfold putSession
  constructor <;> first | (intro _; simp; done) | (intro h; exact absurd (by decide) h)

theorem setPart_only (x : PartState) {w : List Piece} {s t : State} (hw : within [.part] w = true) (h : Only w s t) :
    Only w s (setPart x t) := by
  refine h.andThen (k := [.part]) ?_ hw
  unfold setPart
  constructor <;> first | (intro _; simp; done) | (intro h; exact absurd (by decide) h)

theorem setHalt_only (x : HaltLine) {w : List Piece} {s t : State} (hw : within [.halt] w = true) (h : Only w s t) :
    Only w s (setHalt x t) := by
  refine h.andThen (k := [.halt]) ?_ hw
  unfold setHalt
  constructor <;> first | (intro _; simp; done) | (intro h; exact absurd (by decide) h)

theorem takeHead_only (c : Instr) {w : List Piece} {s t : State} (hw : within [.rx] w = true) (h : Only w s t) :
    Only w s (takeHead c t) := by
  refine h.andThen (k := [.rx]) ?_ hw
  unfold takeHead
  repeat' split
  all_goals first
    | exact Only.refl _ _
    | (constructor <;> first | (intro _; simp; done) | (intro h; exact absurd (by decide) h))

theorem grantOn_only (l : Lane) (m : LaneMachine) (kind : CycleKind) (cls : CycleClass) (fromBackup : Bool) {w : List Piece} {s t : State} (hw : within [.marks, .psv, .owed] w = true) (h : Only w s t) :
    Only w s (grantOn l m kind cls fromBackup t) := by
  refine h.andThen (k := [.marks, .psv, .owed]) ?_ hw
  unfold grantOn
  simp (maxDischargeDepth := 60) (decide := true) only [listCycle_only, putMachine_only, Only.refl, Only.ite]

theorem grant_only (l : Lane) (kind : CycleKind) (cls : CycleClass) (fromBackup : Bool) {w : List Piece} {s t : State} (hw : within [.marks, .psv, .owed] w = true) (h : Only w s t) :
    Only w s (grant l kind cls fromBackup t) := by
  refine h.andThen (k := [.marks, .psv, .owed]) ?_ hw
  unfold grant
  simp (maxDischargeDepth := 60) (decide := true) only [grantOn_only, Only.refl, Only.ite]

theorem stopLane_only (l : Lane) {w : List Piece} {s t : State} (hw : within [.marks, .psv, .owed] w = true) (h : Only w s t) :
    Only w s (stopLane l t) := by
  refine h.andThen (k := [.marks, .psv, .owed]) ?_ hw
  unfold stopLane
  dsimp only
  repeat' first
    | (simp (maxDischargeDepth := 60) (decide := true) only [markStop_only, putMachine_only, Only.refl, Only.ite]; done)
    | split

theorem recoverLane_only (l : Lane) {w : List Piece} {s t : State} (hw : within [.notices, .psv, .owed] w = true) (h : Only w s t) :
    Only w s (recoverLane l t) := by
  refine h.andThen (k := [.notices, .psv, .owed]) ?_ hw
  unfold recoverLane
  simp (maxDischargeDepth := 60) (decide := true) only [raiseLane_only, withdrawLane_only, putMachine_only, Only.refl, Only.ite]

theorem recordStray_only (l : Lane) (report : StrayReport) {w : List Piece} {s t : State} (hw : within [.notices, .psv] w = true) (h : Only w s t) :
    Only w s (recordStray l report t) := by
  refine h.andThen (k := [.notices, .psv]) ?_ hw
  unfold recordStray
  dsimp only
  simp (maxDischargeDepth := 60) (decide := true) only [raiseLane_only, storeMachine_only, Only.refl, Only.ite]

theorem unmatchedCompletion_only (l : Lane) (tag : Byte) (result : CycleResult) {w : List Piece} {s t : State} (hw : within [.notices, .psv] w = true) (h : Only w s t) :
    Only w s (unmatchedCompletion l tag result t) := by
  refine h.andThen (k := [.notices, .psv]) ?_ hw
  unfold unmatchedCompletion
  dsimp only
  repeat' first
    | (simp (maxDischargeDepth := 60) (decide := true) only [raiseLane_only, storeMachine_only, recordStray_only, Only.refl, Only.ite]; done)
    | split

theorem mergePost_only (l : Lane) (post : AutoRequest) {w : List Piece} {s t : State} (hw : within [.requests] w = true) (h : Only w s t) :
    Only w s (mergePost l post t) := by
  refine h.andThen (k := [.requests]) ?_ hw
  unfold mergePost
  repeat' first
    | (simp (maxDischargeDepth := 60) (decide := true) only [setAuto_only, setBackup_only, Only.refl, Only.ite]; done)
    | split

theorem postAuto_only (l : Lane) (post : AutoRequest) {w : List Piece} {s t : State} (hw : within [.requests, .owed] w = true) (h : Only w s t) :
    Only w s (postAuto l post t) := by
  refine h.andThen (k := [.requests, .owed]) ?_ hw
  unfold postAuto
  simp (maxDischargeDepth := 60) (decide := true) only [owe_only, mergePost_only, Only.refl, Only.ite]

theorem replaceBatch_only (q : List BatchEntry) {w : List Piece} {s t : State} (hw : within [.notices, .batch] w = true) (h : Only w s t) :
    Only w s (replaceBatch q t) := by
  refine h.andThen (k := [.notices, .batch]) ?_ hw
  unfold replaceBatch
  dsimp only
  repeat' first
    | (simp (maxDischargeDepth := 60) (decide := true) only [raisePart_only, batchReplaced_only, autoGranted_only, backupGranted_only, dispatcherReplaced_only, forwardDownReplaced_only, Only.refl, Only.ite]; done)
    | split
    | (constructor <;> first | (intro _; simp; done) | (intro h; exact absurd (by decide) h))

theorem settleBatch_only {w : List Piece} {s t : State} (hw : within [.notices, .batch] w = true) (h : Only w s t) :
    Only w s (settleBatch t) := by
  refine h.andThen (k := [.notices, .batch]) ?_ hw
  unfold settleBatch
  simp (maxDischargeDepth := 60) (decide := true) only [replaceBatch_only, Only.refl, Only.ite]

theorem grantChoice_only (c : Choice) {w : List Piece} {s t : State} (hw : within [.marks, .psv, .batch, .requests, .owed] w = true) (h : Only w s t) :
    Only w s (grantChoice c t) := by
  refine h.andThen (k := [.marks, .psv, .batch, .requests, .owed]) ?_ hw
  unfold grantChoice
  repeat' first
    | (simp (maxDischargeDepth := 60) (decide := true) only [setBackup_only, setInject_only, grant_only, batchReplaced_only, autoGranted_only, backupGranted_only, dispatcherReplaced_only, forwardDownReplaced_only, Only.refl, Only.ite]; done)
    | split
    | (constructor <;> first | (intro _; simp; done) | (intro h; exact absurd (by decide) h))

theorem passGrants_only (n : Nat) {w : List Piece} {s t : State} (hw : within [.marks, .notices, .psv, .batch, .requests, .owed] w = true) (h : Only w s t) :
    Only w s (passGrants n t) := by
  induction n generalizing s t with
  | zero => exact h
  | succ n ih =>
    unfold passGrants
    split
    · split
      · exact ih (settleBatch_only (by
        simp only [within, List.all_cons, List.all_nil, Bool.and_true, Bool.and_eq_true] at hw ⊢
        simp [hw]) (grantChoice_only _ (by
        simp only [within, List.all_cons, List.all_nil, Bool.and_true, Bool.and_eq_true] at hw ⊢
        simp [hw]) h))
      · exact h
    · exact h

theorem dispatchPass_only {w : List Piece} {s t : State} (hw : within [.marks, .notices, .psv, .batch, .requests, .owed] w = true) (h : Only w s t) :
    Only w s (dispatchPass t) := by
  refine h.andThen (k := [.marks, .notices, .psv, .batch, .requests, .owed]) ?_ hw
  unfold dispatchPass
  simp (maxDischargeDepth := 60) (decide := true) only [settleBatch_only, passGrants_only, Only.refl, Only.ite]

theorem preemptionCheck_only {w : List Piece} {s t : State} (hw : within [.marks, .psv, .requests, .owed] w = true) (h : Only w s t) :
    Only w s (preemptionCheck t) := by
  refine h.andThen (k := [.marks, .psv, .requests, .owed]) ?_ hw
  unfold preemptionCheck
  dsimp only
  repeat' first
    | (simp (maxDischargeDepth := 60) (decide := true) only [setInject_only, stopLane_only, Only.refl, Only.ite]; done)
    | split

theorem disposeCycle_only (r : CycleReport) {w : List Piece} {s t : State} (hw : within [.requests] w = true) (h : Only w s t) :
    Only w s (disposeCycle r t) := by
  refine h.andThen (k := [.requests]) ?_ hw
  unfold disposeCycle
  simp (maxDischargeDepth := 60) (decide := true) only [setBackup_only, setDiscard_only, Only.refl, Only.ite]

theorem settleInject_only (r : CycleReport) (handedOver : Bool) {w : List Piece} {s t : State} (hw : within [.requests] w = true) (h : Only w s t) :
    Only w s (settleInject r handedOver t) := by
  refine h.andThen (k := [.requests]) ?_ hw
  unfold settleInject
  repeat' first
    | (simp (maxDischargeDepth := 60) (decide := true) only [setInject_only, Only.refl, Only.ite]; done)
    | split

theorem settleReport_only (r : CycleReport) {w : List Piece} {s t : State} (hw : within [.requests] w = true) (h : Only w s t) :
    Only w s (settleReport r t) := by
  refine h.andThen (k := [.requests]) ?_ hw
  unfold settleReport
  simp (maxDischargeDepth := 60) (decide := true) only [disposeCycle_only, settleInject_only, Only.refl, Only.ite]

theorem endCycle_only (r : CycleReport) (ended next : LaneMachine) {w : List Piece} {s t : State} (hw : within [.marks, .psv, .requests, .owed] w = true) (h : Only w s t) :
    Only w s (endCycle r ended next t) := by
  refine h.andThen (k := [.marks, .psv, .requests, .owed]) ?_ hw
  unfold endCycle
  repeat' first
    | (simp (maxDischargeDepth := 60) (decide := true) only [owe_only, putMachine_only, grantOn_only, settleReport_only, Only.refl, Only.ite]; done)
    | split

theorem evalLift_only (p : Pair) {w : List Piece} {s t : State} (hw : within [.marks, .brm] w = true) (h : Only w s t) :
    Only w s (evalLift p t) := by
  refine h.andThen (k := [.marks, .brm]) ?_ hw
  unfold evalLift
  simp (maxDischargeDepth := 60) (decide := true) only [setLiftMark_only, putPair_only, Only.refl, Only.ite]

theorem evalTimer_only (p : Pair) (changed : Bool) {w : List Piece} {s t : State} (hw : within [.brm] w = true) (h : Only w s t) :
    Only w s (evalTimer p changed t) := by
  refine h.andThen (k := [.brm]) ?_ hw
  unfold evalTimer
  simp (maxDischargeDepth := 60) (decide := true) only [putPair_only, Only.refl, Only.ite]

theorem claimPair_only (p : Pair) {w : List Piece} {s t : State} (hw : within [.psv, .owed] w = true) (h : Only w s t) :
    Only w s (claimPair p t) := by
  refine h.andThen (k := [.psv, .owed]) ?_ hw
  unfold claimPair
  simp (maxDischargeDepth := 60) (decide := true) only [claim_only, Only.refl, Only.ite]

theorem releasePair_only (p : Pair) {w : List Piece} {s t : State} (hw : within [.psv, .owed] w = true) (h : Only w s t) :
    Only w s (releasePair p t) := by
  refine h.andThen (k := [.psv, .owed]) ?_ hw
  unfold releasePair
  simp (maxDischargeDepth := 60) (decide := true) only [release_only, Only.refl, Only.ite]

theorem latch_only (c : FaultCause) (p : Pair) {w : List Piece} {s t : State} (hw : within [.notices, .psv, .brm, .owed] w = true) (h : Only w s t) :
    Only w s (latch c p t) := by
  refine h.andThen (k := [.notices, .psv, .brm, .owed]) ?_ hw
  unfold latch
  dsimp only
  simp (maxDischargeDepth := 60) (decide := true) only [raisePair_only, putPair_only, claimPair_only, Only.refl, Only.ite]

theorem raiseRackHigh_only (p : Pair) {w : List Piece} {s t : State} (hw : within [.marks, .notices] w = true) (h : Only w s t) :
    Only w s (raiseRackHigh p t) := by
  refine h.andThen (k := [.marks, .notices]) ?_ hw
  unfold raiseRackHigh
  simp (maxDischargeDepth := 60) (decide := true) only [raisePair_only, raiseConsole_only, Only.refl, Only.ite]

theorem applyFreePlaces_only (p : Pair) (before : Int) {w : List Piece} {s t : State} (hw : within [.marks, .notices] w = true) (h : Only w s t) :
    Only w s (applyFreePlaces p before t) := by
  refine h.andThen (k := [.marks, .notices]) ?_ hw
  unfold applyFreePlaces
  dsimp only
  simp (maxDischargeDepth := 60) (decide := true) only [withdrawPair_only, raiseRackHigh_only, Only.refl, Only.ite]

theorem evalLiftTimer_only (p : Pair) {w : List Piece} {s t : State} (hw : within [.marks, .brm] w = true) (h : Only w s t) :
    Only w s (evalLiftTimer p t) := by
  refine h.andThen (k := [.marks, .brm]) ?_ hw
  unfold evalLiftTimer
  simp (maxDischargeDepth := 60) (decide := true) only [evalLift_only, evalTimer_only, Only.refl, Only.ite]

theorem haltBegin_only {w : List Piece} {s t : State} (hw : within [.marks, .notices, .psv, .brm, .part, .halt, .owed] w = true) (h : Only w s t) :
    Only w s (haltBegin t) := by
  refine h.andThen (k := [.marks, .notices, .psv, .brm, .part, .halt, .owed]) ?_ hw
  unfold haltBegin
  dsimp only
  repeat' first
    | (simp (maxDischargeDepth := 60) (decide := true) only [raisePart_only, claim_only, setPart_only, setHalt_only, stopLane_only, evalLiftTimer_only, Only.refl, Only.ite, Only.forLanes, Only.forPairs, implies_true]; done)
    | refine Only.forLanes ?_ fun _ _ => ?_
    | refine Only.forPairs ?_ fun _ _ => ?_
    | split

theorem driveHalt_only (cause : DriveCause) {w : List Piece} {s t : State} (hw : within [.marks, .notices, .psv, .brm, .part, .halt, .owed] w = true) (h : Only w s t) :
    Only w s (driveHalt cause t) := by
  refine h.andThen (k := [.marks, .notices, .psv, .brm, .part, .halt, .owed]) ?_ hw
  unfold driveHalt
  dsimp only
  simp (maxDischargeDepth := 60) (decide := true) only [setHalt_only, haltBegin_only, Only.refl, Only.ite]

theorem returnToRun_only {w : List Piece} {s t : State} (hw : within [.marks, .notices, .psv, .brm, .part, .halt, .owed] w = true) (h : Only w s t) :
    Only w s (returnToRun t) := by
  refine h.andThen (k := [.marks, .notices, .psv, .brm, .part, .halt, .owed]) ?_ hw
  unfold returnToRun
  dsimp only
  repeat' first
    | (simp (maxDischargeDepth := 60) (decide := true) only [raisePart_only, release_only, setPart_only, setHalt_only, evalLiftTimer_only, Only.refl, Only.ite, Only.forLanes, Only.forPairs, implies_true]; done)
    | refine Only.forLanes ?_ fun _ _ => ?_
    | refine Only.forPairs ?_ fun _ _ => ?_
    | split

theorem tryReturn_only {w : List Piece} {s t : State} (hw : within [.marks, .notices, .psv, .brm, .part, .halt, .owed] w = true) (h : Only w s t) :
    Only w s (tryReturn t) := by
  refine h.andThen (k := [.marks, .notices, .psv, .brm, .part, .halt, .owed]) ?_ hw
  unfold tryReturn
  simp (maxDischargeDepth := 60) (decide := true) only [returnToRun_only, Only.refl, Only.ite]

theorem drawUnless_only (fits : Bool) {w : List Piece} {s t : State} (hw : within [.draws] w = true) (h : Only w s t) :
    Only w s (drawUnless fits t) := by
  refine h.andThen (k := [.draws]) ?_ hw
  unfold drawUnless
  split
  · exact Only.refl _ _
  · constructor <;> first | (intro _; simp; done) | (intro h; exact absurd (by decide) h)

theorem setLog_only (log : List LogRecord) (next fetch : BitVec 16) {w : List Piece} {s t : State} (hw : within [.log] w = true) (h : Only w s t) :
    Only w s (setLog log next fetch t) := by
  refine h.andThen (k := [.log]) ?_ hw
  unfold setLog
  constructor <;> first | (intro _; simp; done) | (intro h; exact absurd (by decide) h)

theorem enterLog_only (c : Charge) {w : List Piece} {s t : State} (hw : within [.notices, .log] w = true) (h : Only w s t) :
    Only w s (enterLog c t) := by
  refine h.andThen (k := [.notices, .log]) ?_ hw
  unfold enterLog
  dsimp only
  simp (maxDischargeDepth := 60) (decide := true) only [raisePart_only, setLog_only, Only.refl, Only.ite]

theorem becomeOwed_only (l : Lane) (c : Charge) {w : List Piece} {s t : State} (hw : within [.notices, .psv, .sessions, .owed] w = true) (h : Only w s t) :
    Only w s (becomeOwed l c t) := by
  refine h.andThen (k := [.notices, .psv, .sessions, .owed]) ?_ hw
  unfold becomeOwed
  dsimp only
  simp (maxDischargeDepth := 60) (decide := true) only [raisePart_only, claim_only, putSession_only, Only.refl, Only.ite]

theorem accrue_only (l : Lane) (amount : BitVec 48) {w : List Piece} {s t : State} (hw : within [.sessions, .draws] w = true) (h : Only w s t) :
    Only w s (accrue l amount t) := by
  refine h.andThen (k := [.sessions, .draws]) ?_ hw
  unfold accrue
  dsimp only
  simp (maxDischargeDepth := 60) (decide := true) only [putSession_only, drawUnless_only, Only.refl, Only.ite]

theorem makeCharge_only (l : Lane) (body : ChargeBody) {w : List Piece} {s t : State} (hw : within [.notices, .psv, .sessions, .log, .owed, .draws] w = true) (h : Only w s t) :
    Only w s (makeCharge l body t) := by
  refine h.andThen (k := [.notices, .psv, .sessions, .log, .owed, .draws]) ?_ hw
  unfold makeCharge
  dsimp only
  repeat' first
    | (simp (maxDischargeDepth := 60) (decide := true) only [putSession_only, drawUnless_only, enterLog_only, becomeOwed_only, accrue_only, Only.refl, Only.ite]; done)
    | split

theorem writeOwed_only (l : Lane) {w : List Piece} {s t : State} (hw : within [.notices, .psv, .sessions, .log, .owed] w = true) (h : Only w s t) :
    Only w s (writeOwed l t) := by
  refine h.andThen (k := [.notices, .psv, .sessions, .log, .owed]) ?_ hw
  unfold writeOwed
  dsimp only
  repeat' first
    | (simp (maxDischargeDepth := 60) (decide := true) only [release_only, putSession_only, enterLog_only, Only.refl, Only.ite]; done)
    | split

theorem startSession_only (l : Lane) {w : List Piece} {s t : State} (hw : within [.sessions] w = true) (h : Only w s t) :
    Only w s (startSession l t) := by
  refine h.andThen (k := [.sessions]) ?_ hw
  unfold startSession
  dsimp only
  simp (maxDischargeDepth := 60) (decide := true) only [putSession_only, Only.refl, Only.ite]

theorem evaluateGate_only (l : Lane) {w : List Piece} {s t : State} (hw : within [.sessions] w = true) (h : Only w s t) :
    Only w s (evaluateGate l t) := by
  refine h.andThen (k := [.sessions]) ?_ hw
  unfold evaluateGate
  repeat' first
    | (simp (maxDischargeDepth := 60) (decide := true) only [putSession_only, Only.refl, Only.ite]; done)
    | split

theorem closeSegment_only (l : Lane) {w : List Piece} {s t : State} (hw : within [.notices, .psv, .sessions, .log, .owed, .draws] w = true) (h : Only w s t) :
    Only w s (closeSegment l t) := by
  refine h.andThen (k := [.notices, .psv, .sessions, .log, .owed, .draws]) ?_ hw
  unfold closeSegment
  dsimp only
  repeat' first
    | (simp (maxDischargeDepth := 60) (decide := true) only [putSession_only, makeCharge_only, Only.refl, Only.ite]; done)
    | split

theorem bandCheck_only (l : Lane) {w : List Piece} {s t : State} (hw : within [.notices, .psv, .sessions, .log, .owed, .draws] w = true) (h : Only w s t) :
    Only w s (bandCheck l t) := by
  refine h.andThen (k := [.notices, .psv, .sessions, .log, .owed, .draws]) ?_ hw
  unfold bandCheck
  repeat' first
    | (simp (maxDischargeDepth := 60) (decide := true) only [closeSegment_only, Only.refl, Only.ite]; done)
    | split

theorem chargeMinute_only (l : Lane) {w : List Piece} {s t : State} (hw : within [.sessions] w = true) (h : Only w s t) :
    Only w s (chargeMinute l t) := by
  refine h.andThen (k := [.sessions]) ?_ hw
  unfold chargeMinute
  dsimp only
  repeat' first
    | (simp (maxDischargeDepth := 60) (decide := true) only [putSession_only, Only.refl, Only.ite]; done)
    | split

theorem expireSession_only (l : Lane) {w : List Piece} {s t : State} (hw : within [.marks, .notices, .psv, .sessions, .log, .owed, .draws] w = true) (h : Only w s t) :
    Only w s (expireSession l t) := by
  refine h.andThen (k := [.marks, .notices, .psv, .sessions, .log, .owed, .draws]) ?_ hw
  unfold expireSession
  dsimp only
  simp (maxDischargeDepth := 60) (decide := true) only [raiseLane_only, raiseConsole_only, claim_only, putSession_only, closeSegment_only, Only.refl, Only.ite]

theorem spendMinute_only (l : Lane) {w : List Piece} {s t : State} (hw : within [.marks, .notices, .psv, .sessions, .log, .owed, .draws] w = true) (h : Only w s t) :
    Only w s (spendMinute l t) := by
  refine h.andThen (k := [.marks, .notices, .psv, .sessions, .log, .owed, .draws]) ?_ hw
  unfold spendMinute
  dsimp only
  repeat' first
    | (simp (maxDischargeDepth := 60) (decide := true) only [raiseLane_only, raiseConsole_only, putSession_only, expireSession_only, Only.refl, Only.ite]; done)
    | split

theorem closeFullSegment_only (l : Lane) {w : List Piece} {s t : State} (hw : within [.notices, .psv, .sessions, .log, .owed, .draws] w = true) (h : Only w s t) :
    Only w s (closeFullSegment l t) := by
  refine h.andThen (k := [.notices, .psv, .sessions, .log, .owed, .draws]) ?_ hw
  unfold closeFullSegment
  simp (maxDischargeDepth := 60) (decide := true) only [closeSegment_only, Only.refl, Only.ite]

theorem meterSecond_only (l : Lane) {w : List Piece} {s t : State} (hw : within [.marks, .notices, .psv, .sessions, .log, .owed, .draws] w = true) (h : Only w s t) :
    Only w s (meterSecond l t) := by
  refine h.andThen (k := [.marks, .notices, .psv, .sessions, .log, .owed, .draws]) ?_ hw
  unfold meterSecond
  dsimp only
  simp (maxDischargeDepth := 60) (decide := true) only [putSession_only, bandCheck_only, chargeMinute_only, spendMinute_only, closeFullSegment_only, Only.refl, Only.ite]

theorem admitOnSession_only (home : Lane) (size : Nat) {w : List Piece} {s t : State} (hw : within [.sessions] w = true) (h : Only w s t) :
    Only w s (admitOnSession home size t) := by
  refine h.andThen (k := [.sessions]) ?_ hw
  unfold admitOnSession
  repeat' first
    | (simp (maxDischargeDepth := 60) (decide := true) only [putSession_only, startSession_only, Only.refl, Only.ite]; done)
    | split

theorem chargeGame_only (home : Lane) (slot : Slot) (game size : Nat) {w : List Piece} {s t : State} (hw : within [.notices, .psv, .sessions, .log, .owed, .draws] w = true) (h : Only w s t) :
    Only w s (chargeGame home slot game size t) := by
  refine h.andThen (k := [.notices, .psv, .sessions, .log, .owed, .draws]) ?_ hw
  unfold chargeGame
  dsimp only
  repeat' first
    | (simp (maxDischargeDepth := 60) (decide := true) only [putSession_only, makeCharge_only, Only.refl, Only.ite]; done)
    | split

theorem returnReservation_only (home : Lane) (size : Nat) {w : List Piece} {s t : State} (hw : within [.sessions] w = true) (h : Only w s t) :
    Only w s (returnReservation home size t) := by
  refine h.andThen (k := [.sessions]) ?_ hw
  unfold returnReservation
  simp (maxDischargeDepth := 60) (decide := true) only [putSession_only, Only.refl, Only.ite]

theorem targetPost_only (l : Lane) (t : Team) {w : List Piece} {s u : State} (hw : within [.requests, .owed] w = true) (h : Only w s u) :
    Only w s (targetPost l t u) := by
  refine h.andThen (k := [.requests, .owed]) ?_ hw
  unfold targetPost
  simp (maxDischargeDepth := 60) (decide := true) only [postAuto_only, Only.refl, Only.ite]

theorem targetCheck_only (l : Lane) {w : List Piece} {s t : State} (hw : within [.requests, .owed] w = true) (h : Only w s t) :
    Only w s (targetCheck l t) := by
  refine h.andThen (k := [.requests, .owed]) ?_ hw
  unfold targetCheck
  dsimp only
  repeat' first
    | (simp (maxDischargeDepth := 60) (decide := true) only [targetPost_only, Only.refl, Only.ite]; done)
    | split

theorem tryAdmission_only (k : Slot) {w : List Piece} {s t : State} (hw : within [.marks, .requests, .teams, .sessions, .owed] w = true) (h : Only w s t) :
    Only w s (tryAdmission k t) := by
  refine h.andThen (k := [.marks, .requests, .teams, .sessions, .owed]) ?_ hw
  unfold tryAdmission
  repeat' first
    | (simp (maxDischargeDepth := 60) (decide := true) only [markStale_only, setTeam_only, admitOnSession_only, targetCheck_only, Only.refl, Only.ite]; done)
    | split

theorem recordGame_only (k : Slot) {w : List Piece} {s t : State} (hw : within [.notices, .psv, .teams, .sessions, .log, .owed, .draws] w = true) (h : Only w s t) :
    Only w s (recordGame k t) := by
  refine h.andThen (k := [.notices, .psv, .teams, .sessions, .log, .owed, .draws]) ?_ hw
  unfold recordGame
  dsimp only
  repeat' first
    | (simp (maxDischargeDepth := 60) (decide := true) only [setTeam_only, chargeGame_only, Only.refl, Only.ite]; done)
    | split

theorem autoContinue_only (k : Slot) {w : List Piece} {s t : State} (hw : within [.marks, .requests, .teams, .sessions, .owed] w = true) (h : Only w s t) :
    Only w s (autoContinue k t) := by
  refine h.andThen (k := [.marks, .requests, .teams, .sessions, .owed]) ?_ hw
  unfold autoContinue
  repeat' first
    | (simp (maxDischargeDepth := 60) (decide := true) only [tryAdmission_only, Only.refl, Only.ite]; done)
    | split

theorem finishGame_only (k : Slot) {w : List Piece} {s t : State} (hw : within [.marks, .notices, .requests, .teams, .sessions, .owed] w = true) (h : Only w s t) :
    Only w s (finishGame k t) := by
  refine h.andThen (k := [.marks, .notices, .requests, .teams, .sessions, .owed]) ?_ hw
  unfold finishGame
  repeat' first
    | (simp (maxDischargeDepth := 60) (decide := true) only [raiseLane_only, markStale_only, setTeam_only, autoContinue_only, Only.refl, Only.ite]; done)
    | split

theorem discardGame_only (k : Slot) {w : List Piece} {s t : State} (hw : within [.teams, .sessions] w = true) (h : Only w s t) :
    Only w s (discardGame k t) := by
  refine h.andThen (k := [.teams, .sessions]) ?_ hw
  unfold discardGame
  repeat' first
    | (simp (maxDischargeDepth := 60) (decide := true) only [setTeam_only, returnReservation_only, Only.refl, Only.ite]; done)
    | split

theorem leaveWaiting_only (k : Slot) {w : List Piece} {s t : State} (hw : within [.marks, .notices, .requests, .teams, .sessions, .owed] w = true) (h : Only w s t) :
    Only w s (leaveWaiting k t) := by
  refine h.andThen (k := [.marks, .notices, .requests, .teams, .sessions, .owed]) ?_ hw
  unfold leaveWaiting
  repeat' first
    | (simp (maxDischargeDepth := 60) (decide := true) only [markStale_only, setTeam_only, targetCheck_only, finishGame_only, Only.refl, Only.ite]; done)
    | split

theorem leaveSeated_only (l : Lane) {w : List Piece} {s t : State} (hw : within [.marks, .notices, .requests, .teams, .sessions, .owed] w = true) (h : Only w s t) :
    Only w s (leaveSeated l t) := by
  refine h.andThen (k := [.marks, .notices, .requests, .teams, .sessions, .owed]) ?_ hw
  unfold leaveSeated
  repeat' first
    | (simp (maxDischargeDepth := 60) (decide := true) only [leaveWaiting_only, Only.refl, Only.ite]; done)
    | split

theorem leavePair_only (p : Pair) {w : List Piece} {s t : State} (hw : within [.marks, .notices, .requests, .teams, .sessions, .owed] w = true) (h : Only w s t) :
    Only w s (leavePair p t) := by
  refine h.andThen (k := [.marks, .notices, .requests, .teams, .sessions, .owed]) ?_ hw
  unfold leavePair
  simp (maxDischargeDepth := 60) (decide := true) only [leaveSeated_only, Only.refl, Only.ite]

theorem cross_only (k : Slot) (t : Team) (other : Option (Slot × Team)) {w : List Piece} {s u : State} (hw : within [.marks, .notices, .requests, .teams, .sessions, .owed] w = true) (h : Only w s u) :
    Only w s (cross k t other u) := by
  refine h.andThen (k := [.marks, .notices, .requests, .teams, .sessions, .owed]) ?_ hw
  unfold cross
  dsimp only
  repeat' first
    | (simp (maxDischargeDepth := 60) (decide := true) only [markStale_only, setTeam_only, leavePair_only, Only.refl, Only.ite]; done)
    | split

theorem crossCheck_only (k : Slot) {w : List Piece} {s t : State} (hw : within [.marks, .notices, .requests, .teams, .sessions, .owed] w = true) (h : Only w s t) :
    Only w s (crossCheck k t) := by
  refine h.andThen (k := [.marks, .notices, .requests, .teams, .sessions, .owed]) ?_ hw
  unfold crossCheck
  repeat' first
    | (simp (maxDischargeDepth := 60) (decide := true) only [cross_only, Only.refl, Only.ite]; done)
    | split

theorem recheckPartner_only (l : Lane) {w : List Piece} {s t : State} (hw : within [.marks, .notices, .requests, .teams, .sessions, .owed] w = true) (h : Only w s t) :
    Only w s (recheckPartner l t) := by
  refine h.andThen (k := [.marks, .notices, .requests, .teams, .sessions, .owed]) ?_ hw
  unfold recheckPartner
  repeat' first
    | (simp (maxDischargeDepth := 60) (decide := true) only [crossCheck_only, Only.refl, Only.ite]; done)
    | split

theorem enterWaiting_only (k : Slot) {w : List Piece} {s t : State} (hw : within [.marks, .notices, .psv, .requests, .teams, .sessions, .log, .owed, .draws] w = true) (h : Only w s t) :
    Only w s (enterWaiting k t) := by
  refine h.andThen (k := [.marks, .notices, .psv, .requests, .teams, .sessions, .log, .owed, .draws]) ?_ hw
  unfold enterWaiting
  dsimp only
  repeat' first
    | (simp (maxDischargeDepth := 60) (decide := true) only [setTeam_only, recordGame_only, crossCheck_only, Only.refl, Only.ite]; done)
    | split

theorem endBowlerFrame_only (k : Slot) {w : List Piece} {s t : State} (hw : within [.marks, .notices, .psv, .requests, .teams, .sessions, .log, .owed, .draws] w = true) (h : Only w s t) :
    Only w s (endBowlerFrame k t) := by
  refine h.andThen (k := [.marks, .notices, .psv, .requests, .teams, .sessions, .log, .owed, .draws]) ?_ hw
  unfold endBowlerFrame
  repeat' first
    | (simp (maxDischargeDepth := 60) (decide := true) only [setTeam_only, recordGame_only, finishGame_only, enterWaiting_only, Only.refl, Only.ite]; done)
    | split

theorem scoreBall_only (l : Lane) (k : Slot) (t : Team) (ball : Ball) (before : Pins) {w : List Piece} {s u : State} (hw : within [.marks, .notices, .psv, .requests, .teams, .sessions, .log, .owed, .draws] w = true) (h : Only w s u) :
    Only w s (scoreBall l k t ball before u) := by
  refine h.andThen (k := [.marks, .notices, .psv, .requests, .teams, .sessions, .log, .owed, .draws]) ?_ hw
  unfold scoreBall
  dsimp only
  repeat' first
    | (simp (maxDischargeDepth := 60) (decide := true) only [markStale_only, setTeam_only, postAuto_only, endBowlerFrame_only, Only.refl, Only.ite]; done)
    | split

theorem emptyCorrection_only (l : Lane) {w : List Piece} {s t : State} (hw : within [.notices, .corrections] w = true) (h : Only w s t) :
    Only w s (emptyCorrection l t) := by
  refine h.andThen (k := [.notices, .corrections]) ?_ hw
  unfold emptyCorrection
  repeat' first
    | (simp (maxDischargeDepth := 60) (decide := true) only [withdrawLane_only, setCorrection_only, Only.refl, Only.ite]; done)
    | split

theorem emptyPicked_only (pick : Correction → Bool) (l : Lane) {w : List Piece} {s t : State} (hw : within [.notices, .corrections] w = true) (h : Only w s t) :
    Only w s (emptyPicked pick l t) := by
  refine h.andThen (k := [.notices, .corrections]) ?_ hw
  unfold emptyPicked
  repeat' first
    | (simp (maxDischargeDepth := 60) (decide := true) only [emptyCorrection_only, Only.refl, Only.ite]; done)
    | split

theorem emptyCorrections_only (pick : Correction → Bool) {w : List Piece} {s t : State} (hw : within [.notices, .corrections] w = true) (h : Only w s t) :
    Only w s (emptyCorrections pick t) := by
  refine h.andThen (k := [.notices, .corrections]) ?_ hw
  unfold emptyCorrections
  repeat' first
    | (simp (maxDischargeDepth := 60) (decide := true) only [emptyPicked_only, Only.refl, Only.ite, Only.forLanes, Only.forPairs, implies_true]; done)
    | refine Only.forLanes ?_ fun _ _ => ?_
    | refine Only.forPairs ?_ fun _ _ => ?_
    | split

theorem deliver_only (n : Node) (f : LaneFrame) {w : List Piece} {s t : State} (hw : within [.owed] w = true) (h : Only w s t) :
    Only w s (deliver n f t) := by
  refine h.andThen (k := [.owed]) ?_ hw
  unfold deliver
  simp (maxDischargeDepth := 60) (decide := true) only [oweAll_only, Only.refl, Only.ite]

theorem refuse_only (dest : Byte) (reason : RefusalReason) {w : List Piece} {s t : State} (hw : within [.notices, .refusals] w = true) (h : Only w s t) :
    Only w s (refuse dest reason t) := by
  refine h.andThen (k := [.notices, .refusals]) ?_ hw
  unfold refuse
  repeat' first
    | (simp (maxDischargeDepth := 60) (decide := true) only [raiseLane_only, raisePart_only, Only.refl, Only.ite]; done)
    | split
    | (constructor <;> first | (intro _; simp; done) | (intro h; exact absurd (by decide) h))

theorem pinfallEffect_only (l : Lane) (r : Pins) {w : List Piece} {s t : State} (hw : within [.notices, .psv, .owed] w = true) (h : Only w s t) :
    Only w s (pinfallEffect l r t) := by
  refine h.andThen (k := [.notices, .psv, .owed]) ?_ hw
  unfold pinfallEffect
  repeat' first
    | (simp (maxDischargeDepth := 60) (decide := true) only [putMachine_only, recordStray_only, Only.refl, Only.ite]; done)
    | split

theorem completeCycle_only (l : Lane) (c : Cycle) (result : CycleResult) {w : List Piece} {s t : State} (hw : within [.marks, .notices, .psv, .requests, .owed] w = true) (h : Only w s t) :
    Only w s (completeCycle l c result t) := by
  refine h.andThen (k := [.marks, .notices, .psv, .requests, .owed]) ?_ hw
  unfold completeCycle
  dsimp only
  simp (maxDischargeDepth := 60) (decide := true) only [raiseLane_only, clearStop_only, endCycle_only, Only.refl, Only.ite]

theorem cycleDoneEffect_only (l : Lane) (tag : Byte) (result : CycleResult) {w : List Piece} {s t : State} (hw : within [.marks, .notices, .psv, .requests, .owed] w = true) (h : Only w s t) :
    Only w s (cycleDoneEffect l tag result t) := by
  refine h.andThen (k := [.marks, .notices, .psv, .requests, .owed]) ?_ hw
  unfold cycleDoneEffect
  dsimp only
  repeat' first
    | (simp (maxDischargeDepth := 60) (decide := true) only [unmatchedCompletion_only, completeCycle_only, Only.refl, Only.ite]; done)
    | split

theorem takeFault_only (l : Lane) (code : Byte) (cls : FaultClass) {w : List Piece} {s t : State} (hw : within [.marks, .psv, .requests, .owed] w = true) (h : Only w s t) :
    Only w s (takeFault l code cls t) := by
  refine h.andThen (k := [.marks, .psv, .requests, .owed]) ?_ hw
  unfold takeFault
  dsimp only
  repeat' first
    | (simp (maxDischargeDepth := 60) (decide := true) only [putMachine_only, endCycle_only, Only.refl, Only.ite]; done)
    | split

theorem safetyDrive_only (l : Lane) (cls : FaultClass) {w : List Piece} {s t : State} (hw : within [.marks, .notices, .psv, .brm, .part, .halt, .owed] w = true) (h : Only w s t) :
    Only w s (safetyDrive l cls t) := by
  refine h.andThen (k := [.marks, .notices, .psv, .brm, .part, .halt, .owed]) ?_ hw
  unfold safetyDrive
  simp (maxDischargeDepth := 60) (decide := true) only [driveHalt_only, Only.refl, Only.ite]

theorem machineFaultEffect_only (l : Lane) (code : Byte) (cls : FaultClass) {w : List Piece} {s t : State} (hw : within [.marks, .notices, .psv, .requests, .brm, .part, .halt, .owed] w = true) (h : Only w s t) :
    Only w s (machineFaultEffect l code cls t) := by
  refine h.andThen (k := [.marks, .notices, .psv, .requests, .brm, .part, .halt, .owed]) ?_ hw
  unfold machineFaultEffect
  simp (maxDischargeDepth := 60) (decide := true) only [raiseLane_only, takeFault_only, safetyDrive_only, Only.refl, Only.ite]

theorem machineReadyEffect_only (l : Lane) {w : List Piece} {s t : State} (hw : within [.notices, .psv, .owed] w = true) (h : Only w s t) :
    Only w s (machineReadyEffect l t) := by
  refine h.andThen (k := [.notices, .psv, .owed]) ?_ hw
  unfold machineReadyEffect
  dsimp only
  repeat' first
    | (simp (maxDischargeDepth := 60) (decide := true) only [raiseLane_only, putMachine_only, recoverLane_only, recordStray_only, Only.refl, Only.ite]; done)
    | split

theorem cycleTimerEffect_only (l : Lane) {w : List Piece} {s t : State} (hw : within [.marks, .notices, .psv, .requests, .owed] w = true) (h : Only w s t) :
    Only w s (cycleTimerEffect l t) := by
  refine h.andThen (k := [.marks, .notices, .psv, .requests, .owed]) ?_ hw
  unfold cycleTimerEffect
  dsimp only
  repeat' first
    | (simp (maxDischargeDepth := 60) (decide := true) only [raiseLane_only, endCycle_only, Only.refl, Only.ite]; done)
    | split

theorem faultAckEffect_only (l : Lane) {w : List Piece} {s t : State} (hw : within [.notices, .psv, .owed] w = true) (h : Only w s t) :
    Only w s (faultAckEffect l t) := by
  refine h.andThen (k := [.notices, .psv, .owed]) ?_ hw
  unfold faultAckEffect
  dsimp only
  repeat' first
    | (simp (maxDischargeDepth := 60) (decide := true) only [putMachine_only, recoverLane_only, Only.refl, Only.ite]; done)
    | split

theorem serviceEnterEffect_only (l : Lane) {w : List Piece} {s t : State} (hw : within [.notices, .psv, .owed] w = true) (h : Only w s t) :
    Only w s (serviceEnterEffect l t) := by
  refine h.andThen (k := [.notices, .psv, .owed]) ?_ hw
  unfold serviceEnterEffect
  dsimp only
  repeat' first
    | (simp (maxDischargeDepth := 60) (decide := true) only [raiseLane_only, withdrawLane_only, putMachine_only, Only.refl, Only.ite]; done)
    | split

theorem serviceExitEffect_only (l : Lane) {w : List Piece} {s t : State} (hw : within [.marks, .notices, .psv, .owed] w = true) (h : Only w s t) :
    Only w s (serviceExitEffect l t) := by
  refine h.andThen (k := [.marks, .notices, .psv, .owed]) ?_ hw
  unfold serviceExitEffect
  dsimp only
  simp (maxDischargeDepth := 60) (decide := true) only [withdrawLane_only, setProbeMark_only, putMachine_only, Only.refl, Only.ite]

theorem takeReport_only (r : CycleReport) {w : List Piece} {s t : State} (hw : within [.marks, .psv, .requests, .owed] w = true) (h : Only w s t) :
    Only w s (takeReport r t) := by
  refine h.andThen (k := [.marks, .psv, .requests, .owed]) ?_ hw
  unfold takeReport
  repeat' first
    | (simp (maxDischargeDepth := 60) (decide := true) only [grant_only, settleReport_only, Only.refl, Only.ite]; done)
    | split

theorem injectEffect_only (l : Lane) (kind : CycleKind) (preempt : Bool) {w : List Piece} {s t : State} (hw : within [.marks, .notices, .psv, .batch, .requests, .owed] w = true) (h : Only w s t) :
    Only w s (injectEffect l kind preempt t) := by
  refine h.andThen (k := [.marks, .notices, .psv, .batch, .requests, .owed]) ?_ hw
  unfold injectEffect
  simp (maxDischargeDepth := 60) (decide := true) only [setInject_only, dispatchPass_only, preemptionCheck_only, Only.refl, Only.ite]

theorem injectCancelEffect_only {w : List Piece} {s t : State} (hw : within [.marks, .notices, .psv, .batch, .requests, .owed] w = true) (h : Only w s t) :
    Only w s (injectCancelEffect t) := by
  refine h.andThen (k := [.marks, .notices, .psv, .batch, .requests, .owed]) ?_ hw
  unfold injectCancelEffect
  repeat' first
    | (simp (maxDischargeDepth := 60) (decide := true) only [setInject_only, dispatchPass_only, Only.refl, Only.ite]; done)
    | split

theorem batchAddEffect_only (first last : Nat) (kind : CycleKind) {w : List Piece} {s t : State} (hw : within [.marks, .notices, .psv, .batch, .requests, .owed] w = true) (h : Only w s t) :
    Only w s (batchAddEffect first last kind t) := by
  refine h.andThen (k := [.marks, .notices, .psv, .batch, .requests, .owed]) ?_ hw
  unfold batchAddEffect
  dsimp only
  repeat' first
    | (simp (maxDischargeDepth := 60) (decide := true) only [withdrawPart_only, dispatchPass_only, batchReplaced_only, autoGranted_only, backupGranted_only, dispatcherReplaced_only, forwardDownReplaced_only, Only.refl, Only.ite]; done)
    | split
    | (constructor <;> first | (intro _; simp; done) | (intro h; exact absurd (by decide) h))

theorem ballPassEffect_only (l : Lane) (speed : Nat) {w : List Piece} {s t : State} (hw : within [.deliveries] w = true) (h : Only w s t) :
    Only w s (ballPassEffect l speed t) := by
  refine h.andThen (k := [.deliveries]) ?_ hw
  unfold ballPassEffect
  repeat' first
    | (simp (maxDischargeDepth := 60) (decide := true) only [setDelivery_only, Only.refl, Only.ite]; done)
    | split

theorem foulEffect_only (l : Lane) {w : List Piece} {s t : State} (hw : within [.deliveries] w = true) (h : Only w s t) :
    Only w s (foulEffect l t) := by
  refine h.andThen (k := [.deliveries]) ?_ hw
  unfold foulEffect
  repeat' first
    | (simp (maxDischargeDepth := 60) (decide := true) only [setDelivery_only, Only.refl, Only.ite]; done)
    | split

theorem settlePinfall_only (l : Lane) (r : Pins) (v : PinfallView) {w : List Piece} {s t : State} (hw : within [.marks, .notices, .psv, .requests, .teams, .sessions, .log, .owed, .draws] w = true) (h : Only w s t) :
    Only w s (settlePinfall l r v t) := by
  refine h.andThen (k := [.marks, .notices, .psv, .requests, .teams, .sessions, .log, .owed, .draws]) ?_ hw
  unfold settlePinfall
  repeat' first
    | (simp (maxDischargeDepth := 60) (decide := true) only [targetPost_only, scoreBall_only, Only.refl, Only.ite]; done)
    | split

theorem pinfallScoringEffect_only (l : Lane) (r : Pins) (v : PinfallView) {w : List Piece} {s t : State} (hw : within [.marks, .notices, .psv, .requests, .deliveries, .teams, .sessions, .log, .owed, .draws] w = true) (h : Only w s t) :
    Only w s (pinfallScoringEffect l r v t) := by
  refine h.andThen (k := [.marks, .notices, .psv, .requests, .deliveries, .teams, .sessions, .log, .owed, .draws]) ?_ hw
  unfold pinfallScoringEffect
  simp (maxDischargeDepth := 60) (decide := true) only [setDelivery_only, settlePinfall_only, Only.refl, Only.ite]

theorem readyEntryEffect_only (l : Lane) (deck : Pins) (valid : Bool) {w : List Piece} {s t : State} (hw : within [.requests, .deliveries, .owed] w = true) (h : Only w s t) :
    Only w s (readyEntryEffect l deck valid t) := by
  refine h.andThen (k := [.requests, .deliveries, .owed]) ?_ hw
  unfold readyEntryEffect
  dsimp only
  repeat' first
    | (simp (maxDischargeDepth := 60) (decide := true) only [setDelivery_only, targetPost_only, Only.refl, Only.ite]; done)
    | split

theorem deliveryVoidEffect_only (l : Lane) {w : List Piece} {s t : State} (hw : within [.requests, .deliveries, .owed] w = true) (h : Only w s t) :
    Only w s (deliveryVoidEffect l t) := by
  refine h.andThen (k := [.requests, .deliveries, .owed]) ?_ hw
  unfold deliveryVoidEffect
  repeat' first
    | (simp (maxDischargeDepth := 60) (decide := true) only [setDelivery_only, targetPost_only, Only.refl, Only.ite]; done)
    | split

theorem startGameEffect_only (l : Lane) {w : List Piece} {s t : State} (hw : within [.marks, .requests, .teams, .sessions, .owed] w = true) (h : Only w s t) :
    Only w s (startGameEffect l t) := by
  refine h.andThen (k := [.marks, .requests, .teams, .sessions, .owed]) ?_ hw
  unfold startGameEffect
  repeat' first
    | (simp (maxDischargeDepth := 60) (decide := true) only [tryAdmission_only, Only.refl, Only.ite]; done)
    | split

theorem teamLoadEffect_only (k : Slot) (home : Lane) (auto : Bool) (names : List (List Byte)) {w : List Piece} {s t : State} (hw : within [.marks, .requests, .teams, .sessions, .owed] w = true) (h : Only w s t) :
    Only w s (teamLoadEffect k home auto names t) := by
  refine h.andThen (k := [.marks, .requests, .teams, .sessions, .owed]) ?_ hw
  unfold teamLoadEffect
  dsimp only
  simp (maxDischargeDepth := 60) (decide := true) only [markStale_only, setTeam_only, tryAdmission_only, Only.refl, Only.ite]

theorem unloadTeam_only (k : Slot) (t : Team) {w : List Piece} {s u : State} (hw : within [.marks, .notices, .deliveries, .teams, .corrections, .sessions] w = true) (h : Only w s u) :
    Only w s (unloadTeam k t u) := by
  refine h.andThen (k := [.marks, .notices, .deliveries, .teams, .corrections, .sessions]) ?_ hw
  unfold unloadTeam
  dsimp only
  simp (maxDischargeDepth := 60) (decide := true) only [raiseLane_only, markStale_only, setDelivery_only, setTeam_only, discardGame_only, emptyCorrections_only, Only.refl, Only.ite]

theorem teamUnloadEffect_only (k : Slot) (t : Team) {w : List Piece} {s u : State} (hw : within [.marks, .notices, .requests, .deliveries, .teams, .corrections, .sessions, .owed] w = true) (h : Only w s u) :
    Only w s (teamUnloadEffect k t u) := by
  refine h.andThen (k := [.marks, .notices, .requests, .deliveries, .teams, .corrections, .sessions, .owed]) ?_ hw
  unfold teamUnloadEffect
  simp (maxDischargeDepth := 60) (decide := true) only [recheckPartner_only, unloadTeam_only, Only.refl, Only.ite]

theorem pairModeEffect_only (p : Pair) (m : PairMode) {w : List Piece} {s t : State} (hw : within [.marks, .notices, .requests, .teams, .modes, .sessions, .owed] w = true) (h : Only w s t) :
    Only w s (pairModeEffect p m t) := by
  refine h.andThen (k := [.marks, .notices, .requests, .teams, .modes, .sessions, .owed]) ?_ hw
  unfold pairModeEffect
  repeat' first
    | (simp (maxDischargeDepth := 60) (decide := true) only [setMode_only, leavePair_only, Only.refl, Only.ite]; done)
    | split

theorem correctionRequestEffect_only (l : Lane) (bowler frame reason : Nat) {w : List Piece} {s t : State} (hw : within [.marks, .notices, .corrections] w = true) (h : Only w s t) :
    Only w s (correctionRequestEffect l bowler frame reason t) := by
  refine h.andThen (k := [.marks, .notices, .corrections]) ?_ hw
  unfold correctionRequestEffect
  repeat' first
    | (simp (maxDischargeDepth := 60) (decide := true) only [raiseLane_only, raiseConsole_only, setCorrection_only, Only.refl, Only.ite]; done)
    | split

theorem amendCommitEffect_only (k : Slot) (t : Team) (bowler n : Nat) (ws : List WireBall) {w : List Piece} {s u : State} (hw : within [.marks, .notices, .teams, .corrections] w = true) (h : Only w s u) :
    Only w s (amendCommitEffect k t bowler n ws u) := by
  refine h.andThen (k := [.marks, .notices, .teams, .corrections]) ?_ hw
  unfold amendCommitEffect
  simp (maxDischargeDepth := 60) (decide := true) only [markStale_only, setTeam_only, emptyCorrections_only, Only.refl, Only.ite]

theorem passBall_only (l : Lane) {w : List Piece} {s t : State} (hw : within [.marks, .notices, .psv, .brm, .owed] w = true) (h : Only w s t) :
    Only w s (passBall l t) := by
  refine h.andThen (k := [.marks, .notices, .psv, .brm, .owed]) ?_ hw
  unfold passBall
  dsimp only
  simp (maxDischargeDepth := 60) (decide := true) only [putPair_only, evalTimer_only, latch_only, applyFreePlaces_only, Only.refl, Only.ite]

theorem ballPassReturnEffect_only (l : Lane) {w : List Piece} {s t : State} (hw : within [.marks, .notices, .psv, .brm, .owed] w = true) (h : Only w s t) :
    Only w s (ballPassReturnEffect l t) := by
  refine h.andThen (k := [.marks, .notices, .psv, .brm, .owed]) ?_ hw
  unfold ballPassReturnEffect
  simp (maxDischargeDepth := 60) (decide := true) only [passBall_only, Only.refl, Only.ite]

theorem arrivalQueue_only (p : Pair) {w : List Piece} {s t : State} (hw : within [.notices, .brm] w = true) (h : Only w s t) :
    Only w s (arrivalQueue p t) := by
  refine h.andThen (k := [.notices, .brm]) ?_ hw
  unfold arrivalQueue
  dsimp only
  simp (maxDischargeDepth := 60) (decide := true) only [raisePair_only, putPair_only, Only.refl, Only.ite]

theorem arrivalRack_only (p : Pair) {w : List Piece} {s t : State} (hw : within [.notices, .psv, .brm, .owed] w = true) (h : Only w s t) :
    Only w s (arrivalRack p t) := by
  refine h.andThen (k := [.notices, .psv, .brm, .owed]) ?_ hw
  unfold arrivalRack
  dsimp only
  simp (maxDischargeDepth := 60) (decide := true) only [putPair_only, latch_only, Only.refl, Only.ite]

theorem ballArrivedEffect_only (p : Pair) {w : List Piece} {s t : State} (hw : within [.marks, .notices, .psv, .brm, .owed] w = true) (h : Only w s t) :
    Only w s (ballArrivedEffect p t) := by
  refine h.andThen (k := [.marks, .notices, .psv, .brm, .owed]) ?_ hw
  unfold ballArrivedEffect
  simp (maxDischargeDepth := 60) (decide := true) only [evalLift_only, evalTimer_only, applyFreePlaces_only, arrivalQueue_only, arrivalRack_only, Only.refl, Only.ite]

theorem takeBall_only (p : Pair) {w : List Piece} {s t : State} (hw : within [.marks, .notices, .brm] w = true) (h : Only w s t) :
    Only w s (takeBall p t) := by
  refine h.andThen (k := [.marks, .notices, .brm]) ?_ hw
  unfold takeBall
  dsimp only
  simp (maxDischargeDepth := 60) (decide := true) only [putPair_only, evalLift_only, evalTimer_only, applyFreePlaces_only, Only.refl, Only.ite]

theorem ballTakenEffect_only (p : Pair) {w : List Piece} {s t : State} (hw : within [.marks, .notices, .brm] w = true) (h : Only w s t) :
    Only w s (ballTakenEffect p t) := by
  refine h.andThen (k := [.marks, .notices, .brm]) ?_ hw
  unfold ballTakenEffect
  simp (maxDischargeDepth := 60) (decide := true) only [raisePair_only, putPair_only, takeBall_only, Only.refl, Only.ite]

theorem liftJamEffect_only (p : Pair) {w : List Piece} {s t : State} (hw : within [.notices, .psv, .brm, .owed] w = true) (h : Only w s t) :
    Only w s (liftJamEffect p t) := by
  refine h.andThen (k := [.notices, .psv, .brm, .owed]) ?_ hw
  unfold liftJamEffect
  simp (maxDischargeDepth := 60) (decide := true) only [latch_only, Only.refl, Only.ite]

theorem liftClearEffect_only (p : Pair) {w : List Piece} {s t : State} (hw : within [.brm] w = true) (h : Only w s t) :
    Only w s (liftClearEffect p t) := by
  refine h.andThen (k := [.brm]) ?_ hw
  unfold liftClearEffect
  simp (maxDischargeDepth := 60) (decide := true) only [putPair_only, Only.refl, Only.ite]

theorem overdueEffect_only (p : Pair) {w : List Piece} {s t : State} (hw : within [.notices, .psv, .brm, .owed] w = true) (h : Only w s t) :
    Only w s (overdueEffect p t) := by
  refine h.andThen (k := [.notices, .psv, .brm, .owed]) ?_ hw
  unfold overdueEffect
  dsimp only
  repeat' first
    | (simp (maxDischargeDepth := 60) (decide := true) only [putPair_only, latch_only, Only.refl, Only.ite]; done)
    | split

theorem transitDiscardEffect_only (p : Pair) {w : List Piece} {s t : State} (hw : within [.marks, .notices, .brm] w = true) (h : Only w s t) :
    Only w s (transitDiscardEffect p t) := by
  refine h.andThen (k := [.marks, .notices, .brm]) ?_ hw
  unfold transitDiscardEffect
  dsimp only
  simp (maxDischargeDepth := 60) (decide := true) only [putPair_only, evalLift_only, evalTimer_only, applyFreePlaces_only, Only.refl, Only.ite]

theorem rackSetEffect_only (p : Pair) (count : Nat) {w : List Piece} {s t : State} (hw : within [.marks, .notices, .brm] w = true) (h : Only w s t) :
    Only w s (rackSetEffect p count t) := by
  refine h.andThen (k := [.marks, .notices, .brm]) ?_ hw
  unfold rackSetEffect
  dsimp only
  simp (maxDischargeDepth := 60) (decide := true) only [putPair_only, applyFreePlaces_only, evalLiftTimer_only, Only.refl, Only.ite]

theorem pairAckEffect_only (p : Pair) (causes : Byte) {w : List Piece} {s t : State} (hw : within [.notices, .psv, .brm, .owed] w = true) (h : Only w s t) :
    Only w s (pairAckEffect p causes t) := by
  refine h.andThen (k := [.notices, .psv, .brm, .owed]) ?_ hw
  unfold pairAckEffect
  dsimp only
  simp (maxDischargeDepth := 60) (decide := true) only [withdrawPair_only, putPair_only, releasePair_only, Only.refl, Only.ite]

theorem ballPassBillingEffect_only (l : Lane) {w : List Piece} {s t : State} (hw : within [.sessions] w = true) (h : Only w s t) :
    Only w s (ballPassBillingEffect l t) := by
  refine h.andThen (k := [.sessions]) ?_ hw
  unfold ballPassBillingEffect
  repeat' first
    | (simp (maxDischargeDepth := 60) (decide := true) only [startSession_only, Only.refl, Only.ite]; done)
    | split

theorem countTimers_only {w : List Piece} {s t : State} (hw : within [.psv, .brm] w = true) (h : Only w s t) :
    Only w s (countTimers t) := by
  refine h.andThen (k := [.psv, .brm]) ?_ hw
  unfold countTimers
  constructor <;> first | (intro _; simp; done) | (intro h; exact absurd (by decide) h)

theorem setClock_only (seconds : Nat) (set : Bool) {w : List Piece} {s t : State} (hw : within [.clock] w = true) (h : Only w s t) :
    Only w s (setClock seconds set t) := by
  refine h.andThen (k := [.clock]) ?_ hw
  unfold setClock
  constructor <;> first | (intro _; simp; done) | (intro h; exact absurd (by decide) h)

theorem clockAdvanceEffect_only {w : List Piece} {s t : State} (hw : within [.marks, .notices, .psv, .brm, .sessions, .log, .clock, .owed, .draws] w = true) (h : Only w s t) :
    Only w s (clockAdvanceEffect t) := by
  refine h.andThen (k := [.marks, .notices, .psv, .brm, .sessions, .log, .clock, .owed, .draws]) ?_ hw
  unfold clockAdvanceEffect
  repeat' first
    | (simp (maxDischargeDepth := 60) (decide := true) only [meterSecond_only, countTimers_only, setClock_only, Only.refl, Only.ite, Only.forLanes, Only.forPairs, implies_true]; done)
    | refine Only.forLanes ?_ fun _ _ => ?_
    | refine Only.forPairs ?_ fun _ _ => ?_
    | split

theorem setTariff_only (i : TariffIndex) (t : Option Tariff) {w : List Piece} {s u : State} (hw : within [.tariffs] w = true) (h : Only w s u) :
    Only w s (setTariff i t u) := by
  refine h.andThen (k := [.tariffs]) ?_ hw
  unfold setTariff
  constructor <;> first | (intro _; simp; done) | (intro h; exact absurd (by decide) h)

theorem unwarn_only (l : Lane) {w : List Piece} {s t : State} (hw : within [.notices, .sessions] w = true) (h : Only w s t) :
    Only w s (unwarn l t) := by
  refine h.andThen (k := [.notices, .sessions]) ?_ hw
  unfold unwarn
  repeat' first
    | (simp (maxDischargeDepth := 60) (decide := true) only [withdrawLane_only, putSession_only, Only.refl, Only.ite]; done)
    | split

theorem reviveSession_only (l : Lane) {w : List Piece} {s t : State} (hw : within [.notices, .psv, .sessions, .owed] w = true) (h : Only w s t) :
    Only w s (reviveSession l t) := by
  refine h.andThen (k := [.notices, .psv, .sessions, .owed]) ?_ hw
  unfold reviveSession
  dsimp only
  simp (maxDischargeDepth := 60) (decide := true) only [withdrawLane_only, release_only, putSession_only, Only.refl, Only.ite]

theorem topupEffect_only (l : Lane) (amount : Nat) {w : List Piece} {s t : State} (hw : within [.notices, .psv, .sessions, .owed] w = true) (h : Only w s t) :
    Only w s (topupEffect l amount t) := by
  refine h.andThen (k := [.notices, .psv, .sessions, .owed]) ?_ hw
  unfold topupEffect
  simp (maxDischargeDepth := 60) (decide := true) only [putSession_only, unwarn_only, reviveSession_only, Only.refl, Only.ite]

theorem chargePartial_only (l : Lane) {w : List Piece} {s t : State} (hw : within [.sessions] w = true) (h : Only w s t) :
    Only w s (chargePartial l t) := by
  refine h.andThen (k := [.sessions]) ?_ hw
  unfold chargePartial
  dsimp only
  simp (maxDischargeDepth := 60) (decide := true) only [putSession_only, chargeMinute_only, Only.refl, Only.ite]

theorem closeLastSegment_only (l : Lane) {w : List Piece} {s t : State} (hw : within [.notices, .psv, .sessions, .log, .owed, .draws] w = true) (h : Only w s t) :
    Only w s (closeLastSegment l t) := by
  refine h.andThen (k := [.notices, .psv, .sessions, .log, .owed, .draws]) ?_ hw
  unfold closeLastSegment
  simp (maxDischargeDepth := 60) (decide := true) only [closeSegment_only, Only.refl, Only.ite]

theorem makeClose_only (l : Lane) {w : List Piece} {s t : State} (hw : within [.notices, .psv, .sessions, .log, .owed, .draws] w = true) (h : Only w s t) :
    Only w s (makeClose l t) := by
  refine h.andThen (k := [.notices, .psv, .sessions, .log, .owed, .draws]) ?_ hw
  unfold makeClose
  dsimp only
  simp (maxDischargeDepth := 60) (decide := true) only [makeCharge_only, Only.refl, Only.ite]

theorem sealSession_only (l : Lane) {w : List Piece} {s t : State} (hw : within [.notices, .psv, .sessions, .owed] w = true) (h : Only w s t) :
    Only w s (sealSession l t) := by
  refine h.andThen (k := [.notices, .psv, .sessions, .owed]) ?_ hw
  unfold sealSession
  simp (maxDischargeDepth := 60) (decide := true) only [withdrawLane_only, release_only, putSession_only, Only.refl, Only.ite]

theorem sessionCloseEffect_only (l : Lane) {w : List Piece} {s t : State} (hw : within [.notices, .psv, .sessions, .log, .owed, .draws] w = true) (h : Only w s t) :
    Only w s (sessionCloseEffect l t) := by
  refine h.andThen (k := [.notices, .psv, .sessions, .log, .owed, .draws]) ?_ hw
  unfold sessionCloseEffect
  simp (maxDischargeDepth := 60) (decide := true) only [chargePartial_only, closeLastSegment_only, makeClose_only, sealSession_only, Only.refl, Only.ite]

theorem chargeFetchEffect_only (n : Nat) {w : List Piece} {s t : State} (hw : within [.log] w = true) (h : Only w s t) :
    Only w s (chargeFetchEffect n t) := by
  refine h.andThen (k := [.log]) ?_ hw
  unfold chargeFetchEffect
  simp (maxDischargeDepth := 60) (decide := true) only [setLog_only, Only.refl, Only.ite]

theorem removeThrough_only (distance : Nat) {w : List Piece} {s t : State} (hw : within [.log] w = true) (h : Only w s t) :
    Only w s (removeThrough distance t) := by
  refine h.andThen (k := [.log]) ?_ hw
  unfold removeThrough
  simp (maxDischargeDepth := 60) (decide := true) only [setLog_only, Only.refl, Only.ite]

theorem settleHigh_only (before : Nat) {w : List Piece} {s t : State} (hw : within [.notices] w = true) (h : Only w s t) :
    Only w s (settleHigh before t) := by
  refine h.andThen (k := [.notices]) ?_ hw
  unfold settleHigh
  simp (maxDischargeDepth := 60) (decide := true) only [withdrawPart_only, Only.refl, Only.ite]

theorem chargeSettleEffect_only (seq : BitVec 16) {w : List Piece} {s t : State} (hw : within [.notices, .psv, .sessions, .log, .owed] w = true) (h : Only w s t) :
    Only w s (chargeSettleEffect seq t) := by
  refine h.andThen (k := [.notices, .psv, .sessions, .log, .owed]) ?_ hw
  unfold chargeSettleEffect
  repeat' first
    | (simp (maxDischargeDepth := 60) (decide := true) only [writeOwed_only, removeThrough_only, settleHigh_only, Only.refl, Only.ite, Only.forLanes, Only.forPairs, implies_true]; done)
    | refine Only.forLanes ?_ fun _ _ => ?_
    | refine Only.forPairs ?_ fun _ _ => ?_
    | split

theorem applyDisposition_only (n : Node) (f : LaneFrame) {w : List Piece} {s t : State} (hw : within [.tx, .owed] w = true) (h : Only w s t) :
    Only w s (applyDisposition n f t) := by
  refine h.andThen (k := [.tx, .owed]) ?_ hw
  unfold applyDisposition
  repeat' first
    | (simp (maxDischargeDepth := 60) (decide := true) only [offerCopy_only, deliver_only, Only.refl, Only.ite]; done)
    | split

theorem classify_only (f : LaneFrame) {w : List Piece} {s t : State} (hw : within [.tx, .notices, .linkErrors, .owed] w = true) (h : Only w s t) :
    Only w s (classify f t) := by
  refine h.andThen (k := [.tx, .notices, .linkErrors, .owed]) ?_ hw
  unfold classify
  repeat' first
    | (simp (maxDischargeDepth := 60) (decide := true) only [linkError_only, offerCopy_only, applyDisposition_only, Only.refl, Only.ite]; done)
    | split

theorem laneFrameEffect_only (bytes : List Byte) {w : List Piece} {s t : State} (hw : within [.tx, .notices, .linkErrors, .owed] w = true) (h : Only w s t) :
    Only w s (laneFrameEffect bytes t) := by
  refine h.andThen (k := [.tx, .notices, .linkErrors, .owed]) ?_ hw
  unfold laneFrameEffect
  repeat' first
    | (simp (maxDischargeDepth := 60) (decide := true) only [linkError_only, classify_only, Only.refl, Only.ite]; done)
    | split

theorem receiveDesk_only (f : DeskFrame) {w : List Piece} {s t : State} (hw : within [.rx, .notices] w = true) (h : Only w s t) :
    Only w s (receiveDesk f t) := by
  refine h.andThen (k := [.rx, .notices]) ?_ hw
  unfold receiveDesk
  repeat' first
    | (simp (maxDischargeDepth := 60) (decide := true) only [raisePart_only, Only.refl, Only.ite]; done)
    | split
    | (constructor <;> first | (intro _; simp; done) | (intro h; exact absurd (by decide) h))

theorem deskFrameReceiveEffect_only (bytes : List Byte) {w : List Piece} {s t : State} (hw : within [.rx, .notices, .linkErrors] w = true) (h : Only w s t) :
    Only w s (deskFrameReceiveEffect bytes t) := by
  refine h.andThen (k := [.rx, .notices, .linkErrors]) ?_ hw
  unfold deskFrameReceiveEffect
  repeat' first
    | (simp (maxDischargeDepth := 60) (decide := true) only [linkError_only, receiveDesk_only, Only.refl, Only.ite]; done)
    | split

theorem deskLaneFrameEffect_only (dest kind : Byte) (payload : List Byte) {w : List Piece} {s t : State} (hw : within [.forwardDown, .notices, .refusals] w = true) (h : Only w s t) :
    Only w s (deskLaneFrameEffect dest kind payload t) := by
  refine h.andThen (k := [.forwardDown, .notices, .refusals]) ?_ hw
  unfold deskLaneFrameEffect
  repeat' first
    | (simp (maxDischargeDepth := 60) (decide := true) only [refuse_only, batchReplaced_only, autoGranted_only, backupGranted_only, dispatcherReplaced_only, forwardDownReplaced_only, Only.refl, Only.ite]; done)
    | split
    | (constructor <;> first | (intro _; simp; done) | (intro h; exact absurd (by decide) h))

theorem setLaneEntry_only (l : Lane) (e : LaneEntry) {w : List Piece} {s t : State} (hw : within [.lanes] w = true) (h : Only w s t) :
    Only w s (setLaneEntry l e t) := by
  refine h.andThen (k := [.lanes]) ?_ hw
  unfold setLaneEntry
  constructor <;> first | (intro _; simp; done) | (intro h; exact absurd (by decide) h)

theorem setPairEntry_only (p : Pair) (e : PairEntry) {w : List Piece} {s t : State} (hw : within [.pairs] w = true) (h : Only w s t) :
    Only w s (setPairEntry p e t) := by
  refine h.andThen (k := [.pairs]) ?_ hw
  unfold setPairEntry
  constructor <;> first | (intro _; simp; done) | (intro h; exact absurd (by decide) h)

theorem pairMapLoadEffect_only (p : Pair) (e : PairEntry) {w : List Piece} {s t : State} (hw : within [.marks, .pairs] w = true) (h : Only w s t) :
    Only w s (pairMapLoadEffect p e t) := by
  refine h.andThen (k := [.marks, .pairs]) ?_ hw
  unfold pairMapLoadEffect
  simp (maxDischargeDepth := 60) (decide := true) only [setLiftMark_only, setPairEntry_only, Only.refl, Only.ite]

theorem setDisposition_only (role : Role) (kind : Fin 32) (d : Disposition) {w : List Piece} {s t : State} (hw : within [.dispositions] w = true) (h : Only w s t) :
    Only w s (setDisposition role kind d t) := by
  refine h.andThen (k := [.dispositions]) ?_ hw
  unfold setDisposition
  constructor <;> first | (intro _; simp; done) | (intro h; exact absurd (by decide) h)

theorem dropCycle_only {w : List Piece} {s t : State} (hw : within [.marks] w = true) (h : Only w s t) :
    Only w s (dropCycle t) := by
  refine h.andThen (k := [.marks]) ?_ hw
  unfold dropCycle
  constructor <;> first | (intro _; simp; done) | (intro h; exact absurd (by decide) h)

theorem consoleServed_only (l : Lane) (c : Console) {w : List Piece} {s t : State} (hw : within [.marks] w = true) (h : Only w s t) :
    Only w s (consoleServed l c t) := by
  refine h.andThen (k := [.marks]) ?_ hw
  unfold consoleServed
  constructor <;> first | (intro _; simp; done) | (intro h; exact absurd (by decide) h)

theorem takeTurn_only (console : Bool) {w : List Piece} {s t : State} (hw : within [.marks] w = true) (h : Only w s t) :
    Only w s (takeTurn console t) := by
  refine h.andThen (k := [.marks]) ?_ hw
  unfold takeTurn
  constructor <;> first | (intro _; simp; done) | (intro h; exact absurd (by decide) h)

theorem setLine_only (f : Option LaneFrame) {w : List Piece} {s t : State} (hw : within [.line] w = true) (h : Only w s t) :
    Only w s (setLine f t) := by
  refine h.andThen (k := [.line]) ?_ hw
  unfold setLine
  constructor <;> first | (intro _; simp; done) | (intro h; exact absurd (by decide) h)

theorem deskFrameSentEffect_only {w : List Piece} {s t : State} (hw : within [.tx] w = true) (h : Only w s t) :
    Only w s (deskFrameSentEffect t) := by
  refine h.andThen (k := [.tx]) ?_ hw
  unfold deskFrameSentEffect
  constructor <;> first | (intro _; simp; done) | (intro h; exact absurd (by decide) h)

theorem afterNotice_only (n : Notice) {w : List Piece} {s t : State} (hw : within [.linkErrors, .brm] w = true) (h : Only w s t) :
    Only w s (afterNotice n t) := by
  refine h.andThen (k := [.linkErrors, .brm]) ?_ hw
  unfold afterNotice
  repeat' first
    | (simp (maxDischargeDepth := 60) (decide := true) only [putPair_only, Only.refl, Only.ite]; done)
    | split
    | (constructor <;> first | (intro _; simp; done) | (intro h; exact absurd (by decide) h))

theorem setNotices_only (ns : List Notice) {w : List Piece} {s t : State} (hw : within [.notices] w = true) (h : Only w s t) :
    Only w s (setNotices ns t) := by
  refine h.andThen (k := [.notices]) ?_ hw
  unfold setNotices
  constructor <;> first | (intro _; simp; done) | (intro h; exact absurd (by decide) h)

theorem noticeDrainEffect_only {w : List Piece} {s t : State} (hw : within [.tx, .notices, .linkErrors, .brm] w = true) (h : Only w s t) :
    Only w s (noticeDrainEffect t) := by
  refine h.andThen (k := [.tx, .notices, .linkErrors, .brm]) ?_ hw
  unfold noticeDrainEffect
  repeat' first
    | (simp (maxDischargeDepth := 60) (decide := true) only [placeDesk_only, afterNotice_only, setNotices_only, Only.refl, Only.ite]; done)
    | split

theorem setParams_only (p : Params) {w : List Piece} {s t : State} (hw : within [.params] w = true) (h : Only w s t) :
    Only w s (setParams p t) := by
  refine h.andThen (k := [.params]) ?_ hw
  unfold setParams
  constructor <;> first | (intro _; simp; done) | (intro h; exact absurd (by decide) h)

theorem paramSetEffect_only (p : Params) (dispatch : Bool) {w : List Piece} {s t : State} (hw : within [.marks, .notices, .psv, .batch, .requests, .params, .owed] w = true) (h : Only w s t) :
    Only w s (paramSetEffect p dispatch t) := by
  refine h.andThen (k := [.marks, .notices, .psv, .batch, .requests, .params, .owed]) ?_ hw
  unfold paramSetEffect
  dsimp only
  simp (maxDischargeDepth := 60) (decide := true) only [dispatchPass_only, preemptionCheck_only, setParams_only, Only.refl, Only.ite]

theorem timeSetEffect_only (seconds : Nat) {w : List Piece} {s t : State} (hw : within [.notices, .psv, .sessions, .log, .clock, .owed, .draws] w = true) (h : Only w s t) :
    Only w s (timeSetEffect seconds t) := by
  refine h.andThen (k := [.notices, .psv, .sessions, .log, .clock, .owed, .draws]) ?_ hw
  unfold timeSetEffect
  repeat' first
    | (simp (maxDischargeDepth := 60) (decide := true) only [bandCheck_only, Only.refl, Only.ite, Only.forLanes, Only.forPairs, implies_true]; done)
    | refine Only.forLanes ?_ fun _ _ => ?_
    | refine Only.forPairs ?_ fun _ _ => ?_
    | split
    | (constructor <;> first | (intro _; simp; done) | (intro h; exact absurd (by decide) h))

theorem resumeEffect_only {w : List Piece} {s t : State} (hw : within [.marks, .notices, .psv, .brm, .part, .halt, .owed] w = true) (h : Only w s t) :
    Only w s (resumeEffect t) := by
  refine h.andThen (k := [.marks, .notices, .psv, .brm, .part, .halt, .owed]) ?_ hw
  unfold resumeEffect
  simp (maxDischargeDepth := 60) (decide := true) only [setHalt_only, tryReturn_only, Only.refl, Only.ite]

theorem haltLineAssertEffect_only {w : List Piece} {s t : State} (hw : within [.marks, .notices, .psv, .brm, .part, .halt, .owed] w = true) (h : Only w s t) :
    Only w s (haltLineAssertEffect t) := by
  refine h.andThen (k := [.marks, .notices, .psv, .brm, .part, .halt, .owed]) ?_ hw
  unfold haltLineAssertEffect
  dsimp only
  simp (maxDischargeDepth := 60) (decide := true) only [setHalt_only, haltBegin_only, Only.refl, Only.ite]

theorem haltLineReleaseEffect_only {w : List Piece} {s t : State} (hw : within [.marks, .notices, .psv, .brm, .part, .halt, .owed] w = true) (h : Only w s t) :
    Only w s (haltLineReleaseEffect t) := by
  refine h.andThen (k := [.marks, .notices, .psv, .brm, .part, .halt, .owed]) ?_ hw
  unfold haltLineReleaseEffect
  simp (maxDischargeDepth := 60) (decide := true) only [setHalt_only, tryReturn_only, Only.refl, Only.ite]

theorem laneCycleExitEffect_only {w : List Piece} {s t : State} (hw : within [.marks, .notices, .psv, .brm, .part, .halt, .owed] w = true) (h : Only w s t) :
    Only w s (laneCycleExitEffect t) := by
  refine h.andThen (k := [.marks, .notices, .psv, .brm, .part, .halt, .owed]) ?_ hw
  unfold laneCycleExitEffect
  simp (maxDischargeDepth := 60) (decide := true) only [raisePart_only, setPart_only, tryReturn_only, Only.refl, Only.ite]

theorem commitPair_only (p : Pair) {w : List Piece} {s t : State} (hw : within [.marks, .notices, .psv, .brm, .owed] w = true) (h : Only w s t) :
    Only w s (commitPair p t) := by
  refine h.andThen (k := [.marks, .notices, .psv, .brm, .owed]) ?_ hw
  unfold commitPair
  dsimp only
  simp (maxDischargeDepth := 60) (decide := true) only [putPair_only, claimPair_only, applyFreePlaces_only, evalLiftTimer_only, Only.refl, Only.ite]

theorem superviseLane_only (l : Lane) {w : List Piece} {s t : State} (hw : within [.marks] w = true) (h : Only w s t) :
    Only w s (superviseLane l t) := by
  refine h.andThen (k := [.marks]) ?_ hw
  unfold superviseLane
  simp (maxDischargeDepth := 60) (decide := true) only [setProbeMark_only, markStale_only, Only.refl, Only.ite]

theorem superviseEnabled_only (l : Lane) {w : List Piece} {s t : State} (hw : within [.marks] w = true) (h : Only w s t) :
    Only w s (superviseEnabled l t) := by
  refine h.andThen (k := [.marks]) ?_ hw
  unfold superviseEnabled
  simp (maxDischargeDepth := 60) (decide := true) only [superviseLane_only, Only.refl, Only.ite]

theorem commitEffect_only {w : List Piece} {s t : State} (hw : within [.marks, .notices, .psv, .brm, .part, .halt, .owed] w = true) (h : Only w s t) :
    Only w s (commitEffect t) := by
  refine h.andThen (k := [.marks, .notices, .psv, .brm, .part, .halt, .owed]) ?_ hw
  unfold commitEffect
  dsimp only
  repeat' first
    | (simp (maxDischargeDepth := 60) (decide := true) only [raisePart_only, setPart_only, haltBegin_only, commitPair_only, superviseEnabled_only, Only.refl, Only.ite, Only.forLanes, Only.forPairs, implies_true]; done)
    | refine Only.forLanes ?_ fun _ _ => ?_
    | refine Only.forPairs ?_ fun _ _ => ?_
    | split

theorem configureLane_only (l : Lane) {w : List Piece} {s t : State} (hw : within [.notices, .psv, .owed] w = true) (h : Only w s t) :
    Only w s (configureLane l t) := by
  refine h.andThen (k := [.notices, .psv, .owed]) ?_ hw
  unfold configureLane
  simp (maxDischargeDepth := 60) (decide := true) only [withdrawLane_only, putMachine_only, Only.refl, Only.ite]

theorem configureDispatcher_only {w : List Piece} {s t : State} (hw : within [.notices, .batch, .requests] w = true) (h : Only w s t) :
    Only w s (configureDispatcher t) := by
  refine h.andThen (k := [.notices, .batch, .requests]) ?_ hw
  unfold configureDispatcher
  repeat' first
    | (simp (maxDischargeDepth := 60) (decide := true) only [withdrawPart_only, batchReplaced_only, autoGranted_only, backupGranted_only, dispatcherReplaced_only, forwardDownReplaced_only, Only.refl, Only.ite]; done)
    | split
    | (constructor <;> first | (intro _; simp; done) | (intro h; exact absurd (by decide) h))

theorem configureLink_only {w : List Piece} {s t : State} (hw : within [.marks] w = true) (h : Only w s t) :
    Only w s (configureLink t) := by
  refine h.andThen (k := [.marks]) ?_ hw
  unfold configureLink
  constructor <;> first | (intro _; simp; done) | (intro h; exact absurd (by decide) h)

theorem configureScoring_only {w : List Piece} {s t : State} (hw : within [.notices, .deliveries, .modes, .corrections] w = true) (h : Only w s t) :
    Only w s (configureScoring t) := by
  refine h.andThen (k := [.notices, .deliveries, .modes, .corrections]) ?_ hw
  refine Only.andThen (t := forLanes emptyCorrection t) (k := [.deliveries, .modes]) ?_ ?_ (by decide)
  · exact Only.forLanes (Only.refl _ _) fun l u => emptyCorrection_only l (by decide) (Only.refl _ _)
  · unfold configureScoring
    constructor <;> first | (intro _; simp; done) | (intro h; exact absurd (by decide) h)

theorem reconfigureEffect_only {w : List Piece} {s t : State} (hw : within [.marks, .notices, .psv, .batch, .requests, .deliveries, .modes, .corrections, .brm, .part, .owed] w = true) (h : Only w s t) :
    Only w s (reconfigureEffect t) := by
  refine h.andThen (k := [.marks, .notices, .psv, .batch, .requests, .deliveries, .modes, .corrections, .brm, .part, .owed]) ?_ hw
  unfold reconfigureEffect
  repeat' first
    | (simp (maxDischargeDepth := 60) (decide := true) only [raisePart_only, setPart_only, evalLiftTimer_only, configureLane_only, configureDispatcher_only, configureLink_only, configureScoring_only, Only.refl, Only.ite, Only.forLanes, Only.forPairs, implies_true]; done)
    | refine Only.forLanes ?_ fun _ _ => ?_
    | refine Only.forPairs ?_ fun _ _ => ?_
    | split

theorem setEnabled_only (l : Lane) (b : Bool) {w : List Piece} {s t : State} (hw : within [.lanes] w = true) (h : Only w s t) :
    Only w s (setEnabled l b t) := by
  refine h.andThen (k := [.lanes]) ?_ hw
  unfold setEnabled
  constructor <;> first | (intro _; simp; done) | (intro h; exact absurd (by decide) h)

theorem laneEnableEffect_only (l : Lane) {w : List Piece} {s t : State} (hw : within [.marks, .notices, .lanes, .psv, .batch, .requests, .brm, .owed] w = true) (h : Only w s t) :
    Only w s (laneEnableEffect l t) := by
  refine h.andThen (k := [.marks, .notices, .lanes, .psv, .batch, .requests, .brm, .owed]) ?_ hw
  unfold laneEnableEffect
  dsimp only
  simp (maxDischargeDepth := 60) (decide := true) only [dispatchPass_only, evalLiftTimer_only, superviseLane_only, setEnabled_only, Only.refl, Only.ite]

theorem dropRequests_only (l : Lane) {w : List Piece} {s t : State} (hw : within [.requests] w = true) (h : Only w s t) :
    Only w s (dropRequests l t) := by
  refine h.andThen (k := [.requests]) ?_ hw
  unfold dropRequests
  dsimp only
  repeat' first
    | (simp (maxDischargeDepth := 60) (decide := true) only [setAuto_only, setBackup_only, setInject_only, Only.refl, Only.ite]; done)
    | split

theorem disableLane_only (l : Lane) {w : List Piece} {s t : State} (hw : within [.marks, .notices, .lanes, .psv, .requests, .deliveries, .modes, .corrections, .brm, .owed] w = true) (h : Only w s t) :
    Only w s (disableLane l t) := by
  refine h.andThen (k := [.marks, .notices, .lanes, .psv, .requests, .deliveries, .modes, .corrections, .brm, .owed]) ?_ hw
  unfold disableLane
  dsimp only
  simp (maxDischargeDepth := 60) (decide := true) only [withdrawLane_only, setProbeMark_only, setConsole_only, putMachine_only, setDelivery_only, setMode_only, evalLiftTimer_only, emptyCorrection_only, setEnabled_only, dropRequests_only, Only.refl, Only.ite]

theorem laneDisableEffect_only (l : Lane) {w : List Piece} {s t : State} (hw : within [.marks, .notices, .lanes, .psv, .batch, .requests, .deliveries, .modes, .corrections, .brm, .owed] w = true) (h : Only w s t) :
    Only w s (laneDisableEffect l t) := by
  refine h.andThen (k := [.marks, .notices, .lanes, .psv, .batch, .requests, .deliveries, .modes, .corrections, .brm, .owed]) ?_ hw
  unfold laneDisableEffect
  simp (maxDischargeDepth := 60) (decide := true) only [dispatchPass_only, disableLane_only, Only.refl, Only.ite]

theorem resetTeam_only (l : Lane) {w : List Piece} {s t : State} (hw : within [.notices, .teams, .sessions] w = true) (h : Only w s t) :
    Only w s (resetTeam l t) := by
  refine h.andThen (k := [.notices, .teams, .sessions]) ?_ hw
  unfold resetTeam
  repeat' first
    | (simp (maxDischargeDepth := 60) (decide := true) only [raiseLane_only, setTeam_only, discardGame_only, Only.refl, Only.ite]; done)
    | split

theorem resetScoring_only (l : Lane) {w : List Piece} {s t : State} (hw : within [.marks, .notices, .deliveries, .teams, .corrections, .sessions] w = true) (h : Only w s t) :
    Only w s (resetScoring l t) := by
  refine h.andThen (k := [.marks, .notices, .deliveries, .teams, .corrections, .sessions]) ?_ hw
  unfold resetScoring
  simp (maxDischargeDepth := 60) (decide := true) only [markStale_only, setDelivery_only, emptyCorrection_only, resetTeam_only, Only.refl, Only.ite]

theorem resetRequests_only (l : Lane) {w : List Piece} {s t : State} (hw : within [.requests] w = true) (h : Only w s t) :
    Only w s (resetRequests l t) := by
  refine h.andThen (k := [.requests]) ?_ hw
  unfold resetRequests
  dsimp only
  simp (maxDischargeDepth := 60) (decide := true) only [setDiscard_only, dropRequests_only, Only.refl, Only.ite]

theorem laneResetEffect_only (l : Lane) {w : List Piece} {s t : State} (hw : within [.marks, .notices, .psv, .batch, .requests, .deliveries, .teams, .corrections, .sessions, .owed] w = true) (h : Only w s t) :
    Only w s (laneResetEffect l t) := by
  refine h.andThen (k := [.marks, .notices, .psv, .batch, .requests, .deliveries, .teams, .corrections, .sessions, .owed]) ?_ hw
  unfold laneResetEffect
  simp (maxDischargeDepth := 60) (decide := true) only [dispatchPass_only, recheckPartner_only, resetScoring_only, resetRequests_only, Only.refl, Only.ite]

/-- A choice of the Lane Link Interface that changes nothing outside `w`. -/
def PickOnly (w : List Piece) (s : State) : Pick → Prop
  | .idle => True
  | .sent _ t => Only w s t
  | .again t => Only w s t

theorem PickOnly.sendTo {w : List Piece} {s t : State} (a : Option Byte) (kind : Byte) (payload : List Byte)
    (h : Only w s t) : PickOnly w s (sendTo a kind payload t) := by
  unfold Machine.sendTo
  split <;> exact h

theorem pickStop_only (l : Lane) (tag : Byte) (s : State) : PickOnly [.forwardDown, .marks, .notices, .refusals] s (pickStop l tag s) := by
  unfold pickStop
  try dsimp only
  repeat' split
  all_goals first
    | (apply PickOnly.sendTo; simp (maxDischargeDepth := 60) (decide := true) only [clearStop_only, dropCycle_only, setLiftMark_only, setProbeMark_only, consoleServed_only, takeTurn_only, refuse_only, forwardDownReplaced_only, Only.refl]; done)
    | (simp (maxDischargeDepth := 60) (decide := true) only [PickOnly, clearStop_only, dropCycle_only, setLiftMark_only, setProbeMark_only, consoleServed_only, takeTurn_only, refuse_only, forwardDownReplaced_only, Only.refl]; done)

theorem pickCycle_only (l : Lane) (tag : Byte) (s : State) : PickOnly [.forwardDown, .marks, .notices, .refusals] s (pickCycle l tag s) := by
  unfold pickCycle
  try dsimp only
  repeat' split
  all_goals first
    | (apply PickOnly.sendTo; simp (maxDischargeDepth := 60) (decide := true) only [clearStop_only, dropCycle_only, setLiftMark_only, setProbeMark_only, consoleServed_only, takeTurn_only, refuse_only, forwardDownReplaced_only, Only.refl]; done)
    | (simp (maxDischargeDepth := 60) (decide := true) only [PickOnly, clearStop_only, dropCycle_only, setLiftMark_only, setProbeMark_only, consoleServed_only, takeTurn_only, refuse_only, forwardDownReplaced_only, Only.refl]; done)

theorem pickLift_only (p : Pair) (s : State) : PickOnly [.forwardDown, .marks, .notices, .refusals] s (pickLift p s) := by
  unfold pickLift
  try dsimp only
  repeat' split
  all_goals first
    | (apply PickOnly.sendTo; simp (maxDischargeDepth := 60) (decide := true) only [clearStop_only, dropCycle_only, setLiftMark_only, setProbeMark_only, consoleServed_only, takeTurn_only, refuse_only, forwardDownReplaced_only, Only.refl]; done)
    | (simp (maxDischargeDepth := 60) (decide := true) only [PickOnly, clearStop_only, dropCycle_only, setLiftMark_only, setProbeMark_only, consoleServed_only, takeTurn_only, refuse_only, forwardDownReplaced_only, Only.refl]; done)

theorem pickProbe_only (l : Lane) (s : State) : PickOnly [.forwardDown, .marks, .notices, .refusals] s (pickProbe l s) := by
  unfold pickProbe
  try dsimp only
  repeat' split
  all_goals first
    | (apply PickOnly.sendTo; simp (maxDischargeDepth := 60) (decide := true) only [clearStop_only, dropCycle_only, setLiftMark_only, setProbeMark_only, consoleServed_only, takeTurn_only, refuse_only, forwardDownReplaced_only, Only.refl]; done)
    | (simp (maxDischargeDepth := 60) (decide := true) only [PickOnly, clearStop_only, dropCycle_only, setLiftMark_only, setProbeMark_only, consoleServed_only, takeTurn_only, refuse_only, forwardDownReplaced_only, Only.refl]; done)

theorem pickConsole_only (l : Lane) (s : State) : PickOnly [.forwardDown, .marks, .notices, .refusals] s (pickConsole l s) := by
  unfold pickConsole
  try dsimp only
  repeat' split
  all_goals first
    | (apply PickOnly.sendTo; simp (maxDischargeDepth := 60) (decide := true) only [clearStop_only, dropCycle_only, setLiftMark_only, setProbeMark_only, consoleServed_only, takeTurn_only, refuse_only, forwardDownReplaced_only, Only.refl]; done)
    | (simp (maxDischargeDepth := 60) (decide := true) only [PickOnly, clearStop_only, dropCycle_only, setLiftMark_only, setProbeMark_only, consoleServed_only, takeTurn_only, refuse_only, forwardDownReplaced_only, Only.refl]; done)

theorem pickQueued_only (f : LaneFrame) (rest : List LaneFrame) (s : State) : PickOnly [.forwardDown, .marks, .notices, .refusals] s (pickQueued f rest s) := by
  unfold pickQueued
  try dsimp only
  repeat' split
  all_goals first
    | (apply PickOnly.sendTo; simp (maxDischargeDepth := 60) (decide := true) only [clearStop_only, dropCycle_only, setLiftMark_only, setProbeMark_only, consoleServed_only, takeTurn_only, refuse_only, forwardDownReplaced_only, Only.refl]; done)
    | (simp (maxDischargeDepth := 60) (decide := true) only [PickOnly, clearStop_only, dropCycle_only, setLiftMark_only, setProbeMark_only, consoleServed_only, takeTurn_only, refuse_only, forwardDownReplaced_only, Only.refl]; done)

theorem pickLowest_only (s : State) : PickOnly [.forwardDown, .marks, .notices, .refusals] s (pickLowest s) := by
  unfold pickLowest
  repeat' split
  all_goals first
    | exact True.intro
    | exact pickConsole_only _ s
    | exact pickQueued_only _ _ s

theorem pick_only (s : State) : PickOnly [.forwardDown, .marks, .notices, .refusals] s (pick s) := by
  unfold pick
  repeat' split
  all_goals first
    | exact True.intro
    | exact pickStop_only _ _ s
    | exact pickCycle_only _ _ s
    | exact pickLift_only _ s
    | exact pickProbe_only _ s
    | exact pickLowest_only  s

theorem pickFrame_only (n : Nat) (s : State) : Only [.forwardDown, .line, .marks, .notices, .refusals] s (pickFrame n s) := by
  induction n generalizing s with
  | zero => exact setLine_only none (by decide) (Only.refl _ _)
  | succ n ih =>
    have hp := pick_only s
    unfold pickFrame
    cases hs : pick s with
    | idle => exact setLine_only none (by decide) (Only.refl _ _)
    | sent f t => rw [hs] at hp; exact setLine_only (some f) (by decide) (hp.mono (by decide))
    | again t => rw [hs] at hp; exact (hp.mono (by decide)).andThen (ih t) (by decide)

theorem lineFreeEffect_only {w : List Piece} {s t : State} (hw : within [.forwardDown, .line, .marks, .notices, .refusals] w = true) (h : Only w s t) :
    Only w s (lineFreeEffect t) := h.andThen (pickFrame_only _ _) hw

theorem judge_only {w : List Piece} {s u : State} {rows : List (Bool × Result)} {effect : State → State × List Byte}
    (h : Only w s u) (he : ∀ v, Only w s v → Only w s (effect v).1) : Only w s (judge rows effect u).1 := by
  unfold judge
  split
  · exact h
  · exact he u h

theorem answer_only {w : List Piece} {s : State} {c : Instr} {tag : BitVec 16} {code : Nat}
    {run : State → State × Result × List Byte} (hw : within [.rx, .tx] w = true)
    (hr : ∀ u, Only w s u → Only w s (run u).1) : Only w s (answer c tag code run s) := by
  have hrx : within [.rx] w = true := by
    simp only [within, List.all_cons, List.all_nil, Bool.and_true, Bool.and_eq_true] at hw ⊢
    exact hw.1
  have htx : within [.tx] w = true := by
    simp only [within, List.all_cons, List.all_nil, Bool.and_true, Bool.and_eq_true] at hw ⊢
    exact hw.2
  unfold answer
  split
  · exact placeDesk_only _ htx (hr _ (takeHead_only c hrx (Only.refl _ _)))
  · exact Only.refl _ _

/-! ### The commands: what each may write when it answers a next state -/

theorem laneFrame_only (bytes : List Byte) {s t : State} (h : exec (.laneFrame bytes) s = .next t) :
    Only [.tx, .notices, .linkErrors, .owed] s t := by
  injection h with h
  subst h
  simp (maxDischargeDepth := 60) (decide := true) only [take_only, laneFrameEffect_only, Only.refl, Only.ite]

theorem pinfall_only (lane : Lane) (r : Pins) {s t : State} (h : exec (.pinfall lane r) s = .next t) :
    Only [.notices, .psv, .owed] s t := by
  injection h with h
  subst h
  simp (maxDischargeDepth := 60) (decide := true) only [take_only, pinfallEffect_only, Only.refl, Only.ite]

theorem pinfallScoring_only (lane : Lane) (r : Pins) (view : PinfallView) {s t : State} (h : exec (.pinfallScoring lane r view) s = .next t) :
    Only [.marks, .notices, .psv, .requests, .deliveries, .teams, .sessions, .log, .owed, .draws] s t := by
  injection h with h
  subst h
  simp (maxDischargeDepth := 60) (decide := true) only [take_only, pinfallScoringEffect_only, Only.refl, Only.ite]

theorem cycleDone_only (lane : Lane) (tag : Byte) (result : CycleResult) {s t : State} (h : exec (.cycleDone lane tag result) s = .next t) :
    Only [.marks, .notices, .psv, .requests, .owed] s t := by
  injection h with h
  subst h
  simp (maxDischargeDepth := 60) (decide := true) only [take_only, cycleDoneEffect_only, Only.refl, Only.ite]

theorem machineFault_only (lane : Lane) (code : Byte) (cls : FaultClass) {s t : State} (h : exec (.machineFault lane code cls) s = .next t) :
    Only [.marks, .notices, .psv, .requests, .brm, .part, .halt, .owed] s t := by
  injection h with h
  subst h
  simp (maxDischargeDepth := 60) (decide := true) only [take_only, machineFaultEffect_only, Only.refl, Only.ite]

theorem machineReady_only (lane : Lane) {s t : State} (h : exec (.machineReady lane) s = .next t) :
    Only [.notices, .psv, .owed] s t := by
  injection h with h
  subst h
  simp (maxDischargeDepth := 60) (decide := true) only [take_only, machineReadyEffect_only, Only.refl, Only.ite]

theorem cycleTimerExpiry_only (lane : Lane) {s t : State} (h : exec (.cycleTimerExpiry lane) s = .next t) :
    Only [.marks, .notices, .psv, .requests, .owed] s t := by
  injection h with h
  subst h
  simp (maxDischargeDepth := 60) (decide := true) only [take_only, cycleTimerEffect_only, Only.refl, Only.ite]

theorem ballPass_only (lane : Lane) (speed : Nat) {s t : State} (h : exec (.ballPass lane speed) s = .next t) :
    Only [.deliveries, .owed] s t := by
  injection h with h
  subst h
  simp (maxDischargeDepth := 60) (decide := true) only [take_only, ballPassEffect_only, Only.refl, Only.ite]

theorem foul_only (lane : Lane) {s t : State} (h : exec (.foul lane) s = .next t) :
    Only [.deliveries, .owed] s t := by
  injection h with h
  subst h
  simp (maxDischargeDepth := 60) (decide := true) only [take_only, foulEffect_only, Only.refl, Only.ite]

theorem ballPassReturn_only (lane : Lane) {s t : State} (h : exec (.ballPassReturn lane) s = .next t) :
    Only [.marks, .notices, .psv, .brm, .owed] s t := by
  injection h with h
  subst h
  simp (maxDischargeDepth := 60) (decide := true) only [take_only, ballPassReturnEffect_only, Only.refl, Only.ite]

theorem ballPassBilling_only (lane : Lane) {s t : State} (h : exec (.ballPassBilling lane) s = .next t) :
    Only [.sessions, .owed] s t := by
  injection h with h
  subst h
  simp (maxDischargeDepth := 60) (decide := true) only [take_only, ballPassBillingEffect_only, Only.refl, Only.ite]

theorem ballArrived_only (pair : Pair) {s t : State} (h : exec (.ballArrived pair) s = .next t) :
    Only [.marks, .notices, .psv, .brm, .owed] s t := by
  injection h with h
  subst h
  simp (maxDischargeDepth := 60) (decide := true) only [take_only, ballArrivedEffect_only, Only.refl, Only.ite]

theorem ballTaken_only (pair : Pair) {s t : State} (h : exec (.ballTaken pair) s = .next t) :
    Only [.marks, .notices, .brm, .owed] s t := by
  injection h with h
  subst h
  simp (maxDischargeDepth := 60) (decide := true) only [take_only, ballTakenEffect_only, Only.refl, Only.ite]

theorem liftJam_only (pair : Pair) {s t : State} (h : exec (.liftJam pair) s = .next t) :
    Only [.notices, .psv, .brm, .owed] s t := by
  injection h with h
  subst h
  simp (maxDischargeDepth := 60) (decide := true) only [take_only, liftJamEffect_only, Only.refl, Only.ite]

theorem liftClear_only (pair : Pair) {s t : State} (h : exec (.liftClear pair) s = .next t) :
    Only [.brm, .owed] s t := by
  injection h with h
  subst h
  simp (maxDischargeDepth := 60) (decide := true) only [take_only, liftClearEffect_only, Only.refl, Only.ite]

theorem overdueTimerExpiry_only (pair : Pair) {s t : State} (h : exec (.overdueTimerExpiry pair) s = .next t) :
    Only [.notices, .psv, .brm, .owed] s t := by
  injection h with h
  subst h
  simp (maxDischargeDepth := 60) (decide := true) only [take_only, overdueEffect_only, Only.refl, Only.ite]

theorem correctionRequest_only (lane : Lane) (bowler frame reason : Nat) {s t : State} (h : exec (.correctionRequest lane bowler frame reason) s = .next t) :
    Only [.marks, .notices, .corrections, .owed] s t := by
  injection h with h
  subst h
  simp (maxDischargeDepth := 60) (decide := true) only [take_only, correctionRequestEffect_only, Only.refl, Only.ite]

theorem startGame_only (lane : Lane) {s t : State} (h : exec (.startGame lane) s = .next t) :
    Only [.marks, .requests, .teams, .sessions, .owed] s t := by
  injection h with h
  subst h
  simp (maxDischargeDepth := 60) (decide := true) only [take_only, startGameEffect_only, Only.refl, Only.ite]

theorem autoPost_only (lane : Lane) (post : AutoRequest) {s t : State} (h : exec (.autoPost lane post) s = .next t) :
    Only [.marks, .notices, .psv, .batch, .requests, .owed] s t := by
  injection h with h
  subst h
  simp (maxDischargeDepth := 60) (decide := true) only [take_only, mergePost_only, dispatchPass_only, Only.refl, Only.ite]

theorem cycleEndReport_only (report : CycleReport) {s t : State} (h : exec (.cycleEndReport report) s = .next t) :
    Only [.marks, .notices, .psv, .batch, .requests, .owed] s t := by
  injection h with h
  subst h
  simp (maxDischargeDepth := 60) (decide := true) only [take_only, dispatchPass_only, takeReport_only, Only.refl, Only.ite]

theorem readyChange_only (lane : Lane) {s t : State} (h : exec (.readyChange lane) s = .next t) :
    Only [.marks, .notices, .psv, .batch, .requests, .owed] s t := by
  injection h with h
  subst h
  simp (maxDischargeDepth := 60) (decide := true) only [take_only, dispatchPass_only, Only.refl, Only.ite]

theorem readyEntry_only (lane : Lane) (deck : Pins) (valid : Bool) {s t : State} (h : exec (.readyEntry lane deck valid) s = .next t) :
    Only [.requests, .deliveries, .owed] s t := by
  injection h with h
  subst h
  simp (maxDischargeDepth := 60) (decide := true) only [take_only, readyEntryEffect_only, Only.refl, Only.ite]

theorem holdSetChange_only (lane : Lane) {s t : State} (h : exec (.holdSetChange lane) s = .next t) :
    Only [.marks, .notices, .psv, .batch, .requests, .owed] s t := by
  injection h with h
  subst h
  simp (maxDischargeDepth := 60) (decide := true) only [take_only, dispatchPass_only, Only.refl, Only.ite]

theorem gateEvaluation_only (lane : Lane) {s t : State} (h : exec (.gateEvaluation lane) s = .next t) :
    Only [.sessions, .owed] s t := by
  injection h with h
  subst h
  simp (maxDischargeDepth := 60) (decide := true) only [take_only, evaluateGate_only, Only.refl, Only.ite]

theorem laneCycleExit_only (lane : Lane) {s t : State} (h : exec (.laneCycleExit lane) s = .next t) :
    Only [.marks, .notices, .psv, .brm, .part, .halt, .owed] s t := by
  injection h with h
  subst h
  simp (maxDischargeDepth := 60) (decide := true) only [take_only, laneCycleExitEffect_only, Only.refl, Only.ite]

theorem clockAdvance_only {s t : State} (h : exec (.clockAdvance) s = .next t) :
    Only [.marks, .notices, .psv, .brm, .sessions, .log, .clock, .owed, .draws] s t := by
  injection h with h
  subst h
  simp (maxDischargeDepth := 60) (decide := true) only [take_only, clockAdvanceEffect_only, Only.refl, Only.ite]

theorem haltLineAssert_only {s t : State} (h : exec (.haltLineAssert) s = .next t) :
    Only [.marks, .notices, .psv, .brm, .part, .halt, .owed] s t := by
  injection h with h
  subst h
  simp (maxDischargeDepth := 60) (decide := true) only [take_only, haltLineAssertEffect_only, Only.refl, Only.ite]

theorem haltLineRelease_only {s t : State} (h : exec (.haltLineRelease) s = .next t) :
    Only [.marks, .notices, .psv, .brm, .part, .halt, .owed] s t := by
  injection h with h
  subst h
  simp (maxDischargeDepth := 60) (decide := true) only [take_only, haltLineReleaseEffect_only, Only.refl, Only.ite]

theorem deskFrameReceive_only (bytes : List Byte) {s t : State} (h : exec (.deskFrameReceive bytes) s = .next t) :
    Only [.rx, .notices, .linkErrors, .owed] s t := by
  injection h with h
  subst h
  simp (maxDischargeDepth := 60) (decide := true) only [take_only, deskFrameReceiveEffect_only, Only.refl, Only.ite]

theorem deskContent_only (frame : DeskFrame) {s t : State} (h : exec (.deskContent frame) s = .next t) :
    Only [.rx, .notices, .linkErrors] s t := by
  injection h with h
  subst h
  simp (maxDischargeDepth := 60) (decide := true) only [linkError_only, takeHead_only, Only.refl, Only.ite]

theorem deskLaneFrame_only (dest kind : Byte) (payload : List Byte) {s t : State} (h : exec (.deskLaneFrame dest kind payload) s = .next t) :
    Only [.forwardDown, .rx, .notices, .refusals] s t := by
  injection h with h
  subst h
  simp (maxDischargeDepth := 60) (decide := true) only [takeHead_only, deskLaneFrameEffect_only, Only.refl, Only.ite]

theorem unknownRequestCode_only (payload : List Byte) {s t : State} (h : exec (.unknownRequestCode payload) s = .next t) :
    Only [.rx, .tx] s t := by
  injection h with h
  subst h
  exact answer_only (by decide) fun u hu => hu

theorem downstreamLineFree_only {s t : State} (h : exec (.downstreamLineFree) s = .next t) :
    Only [.forwardDown, .line, .marks, .notices, .refusals, .owed] s t := by
  injection h with h
  subst h
  simp (maxDischargeDepth := 60) (decide := true) only [take_only, lineFreeEffect_only, lineFreeEffect_only, Only.refl, Only.ite]

theorem deskFrameSent_only {s t : State} (h : exec (.deskFrameSent) s = .next t) :
    Only [.tx, .owed] s t := by
  injection h with h
  subst h
  simp (maxDischargeDepth := 60) (decide := true) only [take_only, deskFrameSentEffect_only, Only.refl, Only.ite]

theorem noticeDrain_only {s t : State} (h : exec (.noticeDrain) s = .next t) :
    Only [.tx, .notices, .linkErrors, .brm, .owed] s t := by
  injection h with h
  subst h
  simp (maxDischargeDepth := 60) (decide := true) only [take_only, noticeDrainEffect_only, Only.refl, Only.ite]

theorem status_only (tag : BitVec 16) {s t : State} (h : exec (.status tag) s = .next t) :
    Only [.rx, .tx] s t := by
  injection h with h
  subst h
  refine answer_only (by decide) fun u hu => ?_
  refine judge_only hu fun v hv => ?_
  simp (maxDischargeDepth := 60) (decide := true) only [Only.refl, Only.ite, hv]

theorem laneStatus_only (tag : BitVec 16) (lane : Byte) {s t : State} (h : exec (.laneStatus tag lane) s = .next t) :
    Only [.rx, .tx] s t := by
  injection h with h
  subst h
  refine answer_only (by decide) fun u hu => ?_
  refine judge_only hu fun v hv => ?_
  simp (maxDischargeDepth := 60) (decide := true) only [Only.refl, Only.ite, hv]

theorem paramSet_only (tag : BitVec 16) (budget rank1 rank2 rank3 batchLow cycleTimeout returnTimeout : Byte) (logHigh : BitVec 16) (safetyHalts : Byte) {s t : State} (h : exec (.paramSet tag budget rank1 rank2 rank3 batchLow cycleTimeout returnTimeout logHigh safetyHalts) s = .next t) :
    Only [.marks, .rx, .tx, .notices, .psv, .batch, .requests, .params, .owed] s t := by
  injection h with h
  subst h
  refine answer_only (by decide) fun u hu => ?_
  refine judge_only hu fun v hv => ?_
  simp (maxDischargeDepth := 60) (decide := true) only [paramSetEffect_only, Only.refl, Only.ite, hv]

theorem paramRead_only (tag : BitVec 16) {s t : State} (h : exec (.paramRead tag) s = .next t) :
    Only [.rx, .tx] s t := by
  injection h with h
  subst h
  refine answer_only (by decide) fun u hu => ?_
  refine judge_only hu fun v hv => ?_
  simp (maxDischargeDepth := 60) (decide := true) only [Only.refl, Only.ite, hv]

theorem timeSet_only (tag : BitVec 16) (seconds : BitVec 32) {s t : State} (h : exec (.timeSet tag seconds) s = .next t) :
    Only [.rx, .tx, .notices, .psv, .sessions, .log, .clock, .owed, .draws] s t := by
  injection h with h
  subst h
  refine answer_only (by decide) fun u hu => ?_
  refine judge_only hu fun v hv => ?_
  simp (maxDischargeDepth := 60) (decide := true) only [timeSetEffect_only, Only.refl, Only.ite, hv]

theorem commit_only (tag : BitVec 16) {s t : State} (h : exec (.commit tag) s = .next t) :
    Only [.marks, .rx, .tx, .notices, .psv, .brm, .part, .halt, .owed] s t := by
  injection h with h
  subst h
  refine answer_only (by decide) fun u hu => ?_
  unfold commitJudge
  repeat' split
  · exact hu
  · exact hu
  · exact commitEffect_only (by decide) hu

theorem reconfigure_only (tag : BitVec 16) {s t : State} (h : exec (.reconfigure tag) s = .next t) :
    Only [.marks, .rx, .tx, .notices, .psv, .batch, .requests, .deliveries, .modes, .corrections, .brm, .part, .owed] s t := by
  injection h with h
  subst h
  refine answer_only (by decide) fun u hu => ?_
  refine judge_only hu fun v hv => ?_
  simp (maxDischargeDepth := 60) (decide := true) only [reconfigureEffect_only, Only.refl, Only.ite, hv]

theorem laneEnable_only (tag : BitVec 16) (lane : Byte) {s t : State} (h : exec (.laneEnable tag lane) s = .next t) :
    Only [.marks, .rx, .tx, .notices, .lanes, .psv, .batch, .requests, .brm, .owed] s t := by
  injection h with h
  subst h
  refine answer_only (by decide) fun u hu => ?_
  refine judge_only hu fun v hv => ?_
  simp (maxDischargeDepth := 60) (decide := true) only [laneEnableEffect_only, Only.refl, Only.ite, hv]

theorem laneDisable_only (tag : BitVec 16) (lane : Byte) {s t : State} (h : exec (.laneDisable tag lane) s = .next t) :
    Only [.marks, .rx, .tx, .notices, .lanes, .psv, .batch, .requests, .deliveries, .modes, .corrections, .brm, .owed] s t := by
  injection h with h
  subst h
  refine answer_only (by decide) fun u hu => ?_
  refine judge_only hu fun v hv => ?_
  simp (maxDischargeDepth := 60) (decide := true) only [laneDisableEffect_only, Only.refl, Only.ite, hv]

theorem laneReset_only (tag : BitVec 16) (lane : Byte) {s t : State} (h : exec (.laneReset tag lane) s = .next t) :
    Only [.marks, .rx, .tx, .notices, .psv, .batch, .requests, .deliveries, .teams, .corrections, .sessions, .owed] s t := by
  injection h with h
  subst h
  refine answer_only (by decide) fun u hu => ?_
  refine judge_only hu fun v hv => ?_
  simp (maxDischargeDepth := 60) (decide := true) only [resetScoring_only, laneResetEffect_only, Only.refl, Only.ite, hv]

theorem haltAll_only (tag : BitVec 16) {s t : State} (h : exec (.haltAll tag) s = .next t) :
    Only [.marks, .rx, .tx, .notices, .psv, .brm, .part, .halt, .owed] s t := by
  injection h with h
  subst h
  refine answer_only (by decide) fun u hu => ?_
  refine judge_only hu fun v hv => ?_
  simp (maxDischargeDepth := 60) (decide := true) only [driveHalt_only, Only.refl, Only.ite, hv]

theorem resumeAll_only (tag : BitVec 16) {s t : State} (h : exec (.resumeAll tag) s = .next t) :
    Only [.marks, .rx, .tx, .notices, .psv, .brm, .part, .halt, .owed] s t := by
  injection h with h
  subst h
  refine answer_only (by decide) fun u hu => ?_
  refine judge_only hu fun v hv => ?_
  simp (maxDischargeDepth := 60) (decide := true) only [resumeEffect_only, Only.refl, Only.ite, hv]

theorem laneMapLoad_only (tag : BitVec 16) (lane enabled ps fl cn : Byte) {s t : State} (h : exec (.laneMapLoad tag lane enabled ps fl cn) s = .next t) :
    Only [.rx, .tx, .lanes] s t := by
  injection h with h
  subst h
  refine answer_only (by decide) fun u hu => ?_
  refine judge_only hu fun v hv => ?_
  simp (maxDischargeDepth := 60) (decide := true) only [setLaneEntry_only, Only.refl, Only.ite, hv]

theorem pairMapLoad_only (tag : BitVec 16) (pair br capacity level initial : Byte) {s t : State} (h : exec (.pairMapLoad tag pair br capacity level initial) s = .next t) :
    Only [.marks, .rx, .tx, .pairs] s t := by
  injection h with h
  subst h
  refine answer_only (by decide) fun u hu => ?_
  refine judge_only hu fun v hv => ?_
  simp (maxDischargeDepth := 60) (decide := true) only [pairMapLoadEffect_only, Only.refl, Only.ite, hv]

theorem dispositionLoad_only (tag : BitVec 16) (role kind action : Byte) {s t : State} (h : exec (.dispositionLoad tag role kind action) s = .next t) :
    Only [.rx, .tx, .dispositions] s t := by
  injection h with h
  subst h
  refine answer_only (by decide) fun u hu => ?_
  refine judge_only hu fun v hv => ?_
  simp (maxDischargeDepth := 60) (decide := true) only [setDisposition_only, Only.refl, Only.ite, hv]

theorem faultAck_only (tag : BitVec 16) (lane : Byte) {s t : State} (h : exec (.faultAck tag lane) s = .next t) :
    Only [.rx, .tx, .notices, .psv, .owed] s t := by
  injection h with h
  subst h
  refine answer_only (by decide) fun u hu => ?_
  refine judge_only hu fun v hv => ?_
  simp (maxDischargeDepth := 60) (decide := true) only [faultAckEffect_only, Only.refl, Only.ite, hv]

theorem serviceEnter_only (tag : BitVec 16) (lane : Byte) {s t : State} (h : exec (.serviceEnter tag lane) s = .next t) :
    Only [.rx, .tx, .notices, .psv, .owed] s t := by
  injection h with h
  subst h
  refine answer_only (by decide) fun u hu => ?_
  refine judge_only hu fun v hv => ?_
  simp (maxDischargeDepth := 60) (decide := true) only [serviceEnterEffect_only, Only.refl, Only.ite, hv]

theorem serviceExit_only (tag : BitVec 16) (lane : Byte) {s t : State} (h : exec (.serviceExit tag lane) s = .next t) :
    Only [.marks, .rx, .tx, .notices, .psv, .owed] s t := by
  injection h with h
  subst h
  refine answer_only (by decide) fun u hu => ?_
  refine judge_only hu fun v hv => ?_
  simp (maxDischargeDepth := 60) (decide := true) only [serviceExitEffect_only, Only.refl, Only.ite, hv]

theorem laneHold_only (tag : BitVec 16) (lane : Byte) {s t : State} (h : exec (.laneHold tag lane) s = .next t) :
    Only [.rx, .tx, .psv, .owed] s t := by
  injection h with h
  subst h
  refine answer_only (by decide) fun u hu => ?_
  refine judge_only hu fun v hv => ?_
  simp (maxDischargeDepth := 60) (decide := true) only [claim_only, Only.refl, Only.ite, hv]

theorem laneRelease_only (tag : BitVec 16) (lane : Byte) {s t : State} (h : exec (.laneRelease tag lane) s = .next t) :
    Only [.rx, .tx, .psv, .owed] s t := by
  injection h with h
  subst h
  refine answer_only (by decide) fun u hu => ?_
  refine judge_only hu fun v hv => ?_
  simp (maxDischargeDepth := 60) (decide := true) only [release_only, Only.refl, Only.ite, hv]

theorem inject_only (tag : BitVec 16) (lane kind : Byte) (pattern : BitVec 16) (preempt : Byte) {s t : State} (h : exec (.inject tag lane kind pattern preempt) s = .next t) :
    Only [.marks, .rx, .tx, .notices, .psv, .batch, .requests, .owed] s t := by
  injection h with h
  subst h
  refine answer_only (by decide) fun u hu => ?_
  refine judge_only hu fun v hv => ?_
  simp (maxDischargeDepth := 60) (decide := true) only [injectEffect_only, Only.refl, Only.ite, hv]

theorem injectCancel_only (tag : BitVec 16) (lane : Byte) {s t : State} (h : exec (.injectCancel tag lane) s = .next t) :
    Only [.marks, .rx, .tx, .notices, .psv, .batch, .requests, .owed] s t := by
  injection h with h
  subst h
  refine answer_only (by decide) fun u hu => ?_
  refine judge_only hu fun v hv => ?_
  simp (maxDischargeDepth := 60) (decide := true) only [injectCancelEffect_only, Only.refl, Only.ite, hv]

theorem batchAdd_only (tag : BitVec 16) (first last kind : Byte) {s t : State} (h : exec (.batchAdd tag first last kind) s = .next t) :
    Only [.marks, .rx, .tx, .notices, .psv, .batch, .requests, .owed] s t := by
  injection h with h
  subst h
  refine answer_only (by decide) fun u hu => ?_
  refine judge_only hu fun v hv => ?_
  simp (maxDischargeDepth := 60) (decide := true) only [batchAddEffect_only, Only.refl, Only.ite, hv]

theorem batchFlush_only (tag : BitVec 16) {s t : State} (h : exec (.batchFlush tag) s = .next t) :
    Only [.marks, .rx, .tx, .notices, .psv, .batch, .requests, .owed] s t := by
  injection h with h
  subst h
  refine answer_only (by decide) fun u hu => ?_
  refine judge_only hu fun v hv => ?_
  simp (maxDischargeDepth := 60) (decide := true) only [replaceBatch_only, dispatchPass_only, Only.refl, Only.ite, hv]

theorem deliveryVoid_only (tag : BitVec 16) (lane : Byte) {s t : State} (h : exec (.deliveryVoid tag lane) s = .next t) :
    Only [.rx, .tx, .requests, .deliveries, .owed] s t := by
  injection h with h
  subst h
  refine answer_only (by decide) fun u hu => ?_
  refine judge_only hu fun v hv => ?_
  simp (maxDischargeDepth := 60) (decide := true) only [deliveryVoidEffect_only, Only.refl, Only.ite, hv]

theorem teamLoad_only (tag : BitVec 16) (slot home auto size : Byte) (names : List (List Byte)) {s t : State} (h : exec (.teamLoad tag slot home auto size names) s = .next t) :
    Only [.marks, .rx, .tx, .requests, .teams, .sessions, .owed] s t := by
  injection h with h
  subst h
  refine answer_only (by decide) fun u hu => ?_
  refine judge_only hu fun v hv => ?_
  simp (maxDischargeDepth := 60) (decide := true) only [teamLoadEffect_only, Only.refl, Only.ite, hv]

theorem teamUnload_only (tag : BitVec 16) (slot : Byte) {s t : State} (h : exec (.teamUnload tag slot) s = .next t) :
    Only [.marks, .rx, .tx, .notices, .requests, .deliveries, .teams, .corrections, .sessions, .owed] s t := by
  injection h with h
  subst h
  refine answer_only (by decide) fun u hu => ?_
  refine judge_only hu fun v hv => ?_
  try dsimp only
  repeat' first
    | with_reducible exact hv
    | (simp (maxDischargeDepth := 60) (decide := true) only [unloadTeam_only, teamUnloadEffect_only, Only.refl, Only.ite, hv]; done)
    | split

theorem teamRead_only (tag : BitVec 16) (slot bowler : Byte) {s t : State} (h : exec (.teamRead tag slot bowler) s = .next t) :
    Only [.rx, .tx] s t := by
  injection h with h
  subst h
  refine answer_only (by decide) fun u hu => ?_
  refine judge_only hu fun v hv => ?_
  simp (maxDischargeDepth := 60) (decide := true) only [Only.refl, Only.ite, hv]

theorem gameStart_only (tag : BitVec 16) (slot : Byte) {s t : State} (h : exec (.gameStart tag slot) s = .next t) :
    Only [.marks, .rx, .tx, .requests, .teams, .sessions, .owed] s t := by
  injection h with h
  subst h
  refine answer_only (by decide) fun u hu => ?_
  refine judge_only hu fun v hv => ?_
  simp (maxDischargeDepth := 60) (decide := true) only [tryAdmission_only, Only.refl, Only.ite, hv]

theorem pairMode_only (tag : BitVec 16) (pair mode : Byte) {s t : State} (h : exec (.pairMode tag pair mode) s = .next t) :
    Only [.marks, .rx, .tx, .notices, .requests, .teams, .modes, .sessions, .owed] s t := by
  injection h with h
  subst h
  refine answer_only (by decide) fun u hu => ?_
  refine judge_only hu fun v hv => ?_
  simp (maxDischargeDepth := 60) (decide := true) only [pairModeEffect_only, Only.refl, Only.ite, hv]

theorem correctionClose_only (tag : BitVec 16) (lane : Byte) {s t : State} (h : exec (.correctionClose tag lane) s = .next t) :
    Only [.rx, .tx, .notices, .corrections] s t := by
  injection h with h
  subst h
  refine answer_only (by decide) fun u hu => ?_
  refine judge_only hu fun v hv => ?_
  simp (maxDischargeDepth := 60) (decide := true) only [emptyCorrection_only, Only.refl, Only.ite, hv]

theorem amendReserve_only (tag : BitVec 16) (slot bowler frame : Byte) {s t : State} (h : exec (.amendReserve tag slot bowler frame) s = .next t) :
    Only [.rx, .tx, .teams] s t := by
  injection h with h
  subst h
  refine answer_only (by decide) fun u hu => ?_
  refine judge_only hu fun v hv => ?_
  try dsimp only
  repeat' first
    | with_reducible exact hv
    | (simp (maxDischargeDepth := 60) (decide := true) only [setTeam_only, Only.refl, Only.ite, hv]; done)
    | split

theorem amendCommit_only (tag : BitVec 16) (slot bowler frame count : Byte) (balls : List WireBall) {s t : State} (h : exec (.amendCommit tag slot bowler frame count balls) s = .next t) :
    Only [.marks, .rx, .tx, .notices, .teams, .corrections] s t := by
  injection h with h
  subst h
  refine answer_only (by decide) fun u hu => ?_
  refine judge_only hu fun v hv => ?_
  try dsimp only
  repeat' first
    | with_reducible exact hv
    | (simp (maxDischargeDepth := 60) (decide := true) only [amendCommitEffect_only, Only.refl, Only.ite, hv]; done)
    | split

theorem transitDiscard_only (tag : BitVec 16) (pair : Byte) {s t : State} (h : exec (.transitDiscard tag pair) s = .next t) :
    Only [.marks, .rx, .tx, .notices, .brm] s t := by
  injection h with h
  subst h
  refine answer_only (by decide) fun u hu => ?_
  refine judge_only hu fun v hv => ?_
  simp (maxDischargeDepth := 60) (decide := true) only [transitDiscardEffect_only, Only.refl, Only.ite, hv]

theorem rackSet_only (tag : BitVec 16) (pair count : Byte) {s t : State} (h : exec (.rackSet tag pair count) s = .next t) :
    Only [.marks, .rx, .tx, .notices, .brm] s t := by
  injection h with h
  subst h
  refine answer_only (by decide) fun u hu => ?_
  refine judge_only hu fun v hv => ?_
  simp (maxDischargeDepth := 60) (decide := true) only [rackSetEffect_only, Only.refl, Only.ite, hv]

theorem pairAck_only (tag : BitVec 16) (pair causes : Byte) {s t : State} (h : exec (.pairAck tag pair causes) s = .next t) :
    Only [.rx, .tx, .notices, .psv, .brm, .owed] s t := by
  injection h with h
  subst h
  refine answer_only (by decide) fun u hu => ?_
  refine judge_only hu fun v hv => ?_
  simp (maxDischargeDepth := 60) (decide := true) only [pairAckEffect_only, Only.refl, Only.ite, hv]

theorem pairStatus_only (tag : BitVec 16) (pair : Byte) {s t : State} (h : exec (.pairStatus tag pair) s = .next t) :
    Only [.rx, .tx] s t := by
  injection h with h
  subst h
  refine answer_only (by decide) fun u hu => ?_
  refine judge_only hu fun v hv => ?_
  simp (maxDischargeDepth := 60) (decide := true) only [Only.refl, Only.ite, hv]

theorem tariffLoad_only (tag : BitVec 16) (index basis count : Byte) (bands : List WireBand) (trigger gate warn rounding : Byte) {s t : State} (h : exec (.tariffLoad tag index basis count bands trigger gate warn rounding) s = .next t) :
    Only [.rx, .tx, .tariffs] s t := by
  injection h with h
  subst h
  refine answer_only (by decide) fun u hu => ?_
  refine judge_only hu fun v hv => ?_
  simp (maxDischargeDepth := 60) (decide := true) only [setTariff_only, Only.refl, Only.ite, hv]

theorem tariffRead_only (tag : BitVec 16) (index : Byte) {s t : State} (h : exec (.tariffRead tag index) s = .next t) :
    Only [.rx, .tx] s t := by
  injection h with h
  subst h
  refine answer_only (by decide) fun u hu => ?_
  refine judge_only hu fun v hv => ?_
  simp (maxDischargeDepth := 60) (decide := true) only [Only.refl, Only.ite, hv]

theorem sessionOpen_only (tag : BitVec 16) (lane : Byte) (session : BitVec 16) (tariff : Byte) (credit : BitVec 16) {s t : State} (h : exec (.sessionOpen tag lane session tariff credit) s = .next t) :
    Only [.rx, .tx, .sessions] s t := by
  injection h with h
  subst h
  refine answer_only (by decide) fun u hu => ?_
  refine judge_only hu fun v hv => ?_
  simp (maxDischargeDepth := 60) (decide := true) only [putSession_only, Only.refl, Only.ite, hv]

theorem sessionTopup_only (tag : BitVec 16) (lane : Byte) (amount : BitVec 16) {s t : State} (h : exec (.sessionTopup tag lane amount) s = .next t) :
    Only [.rx, .tx, .notices, .psv, .sessions, .owed] s t := by
  injection h with h
  subst h
  refine answer_only (by decide) fun u hu => ?_
  refine judge_only hu fun v hv => ?_
  simp (maxDischargeDepth := 60) (decide := true) only [topupEffect_only, Only.refl, Only.ite, hv]

theorem sessionClose_only (tag : BitVec 16) (lane : Byte) {s t : State} (h : exec (.sessionClose tag lane) s = .next t) :
    Only [.rx, .tx, .notices, .psv, .sessions, .log, .owed, .draws] s t := by
  injection h with h
  subst h
  refine answer_only (by decide) fun u hu => ?_
  refine judge_only hu fun v hv => ?_
  simp (maxDischargeDepth := 60) (decide := true) only [sessionCloseEffect_only, Only.refl, Only.ite, hv]

theorem sessionRead_only (tag : BitVec 16) (lane : Byte) {s t : State} (h : exec (.sessionRead tag lane) s = .next t) :
    Only [.rx, .tx, .draws] s t := by
  injection h with h
  subst h
  refine answer_only (by decide) fun u hu => ?_
  refine judge_only hu fun v hv => ?_
  simp (maxDischargeDepth := 60) (decide := true) only [drawUnless_only, Only.refl, Only.ite, hv]

theorem chargeFetch_only (tag : BitVec 16) (n : Byte) {s t : State} (h : exec (.chargeFetch tag n) s = .next t) :
    Only [.rx, .tx, .log] s t := by
  injection h with h
  subst h
  refine answer_only (by decide) fun u hu => ?_
  refine judge_only hu fun v hv => ?_
  simp (maxDischargeDepth := 60) (decide := true) only [chargeFetchEffect_only, Only.refl, Only.ite, hv]

theorem chargeSettle_only (tag : BitVec 16) (seq : BitVec 16) {s t : State} (h : exec (.chargeSettle tag seq) s = .next t) :
    Only [.rx, .tx, .notices, .psv, .sessions, .log, .owed] s t := by
  injection h with h
  subst h
  refine answer_only (by decide) fun u hu => ?_
  refine judge_only hu fun v hv => ?_
  simp (maxDischargeDepth := 60) (decide := true) only [chargeSettleEffect_only, Only.refl, Only.ite, hv]

theorem chargeRewind_only (tag : BitVec 16) {s t : State} (h : exec (.chargeRewind tag) s = .next t) :
    Only [.rx, .tx, .log] s t := by
  injection h with h
  subst h
  refine answer_only (by decide) fun u hu => ?_
  refine judge_only hu fun v hv => ?_
  simp (maxDischargeDepth := 60) (decide := true) only [setLog_only, Only.refl, Only.ite, hv]

end Sys2Proof.Laws
end

