-- ==== Sys2Proof/Tests/Slice0.lean ====
section
/-! SUPPORT. Tests/Slice0.lean: the ill-formed terms, small tests of the commands, and a witness for the hypotheses of each statement. -/

namespace Sys2Proof.Tests

open Sys2Proof Machine

set_option Elab.async false

/-! ### Small states -/

/-- The state an outcome answers. -/
def answered (o : Host.Outcome State Fault Refusal) : Option State :=
  match o with
  | .next s => some s
  | _ => none

/-- A part in RUN whose lane 1 is enabled, with its nodes at addresses 1 to 3 and the ball return of pair 1 at address 4. -/
def ground : State :=
  let r := State.reset
  { r with
    frr := { r.frr with
      lanes := r.frr.lanes.put 0 ⟨true, some 1, some 2, some 3⟩
      pairs := r.frr.pairs.put 0 ⟨some 4, 12, 2, 0⟩ }
    brm := r.brm.put 0 { PairRecord.reset with lift := true }
    mrp := { r.mrp with part := .run, clockSet := true } }

/-- The part with another part state. -/
def inPart (p : PartState) (s : State) : State := { s with mrp := { s.mrp with part := p } }

/-- The part with lane 1's machine record replaced. -/
def withMachine (m : LaneMachine) (s : State) : State := { s with psv := s.psv.put 0 m }

/-- The part with pair 1's record replaced. -/
def withPair (r : PairRecord) (s : State) : State := { s with brm := s.brm.put 0 r }

/-- The part with lane 1's session record replaced. -/
def withSession (x : Session) (s : State) : State := { s with blu := { s.blu with sessions := s.blu.sessions.put 0 x } }

/-- The part with tariff 0 loaded. -/
def withTariff (t : Tariff) (s : State) : State := { s with blu := { s.blu with tariffs := s.blu.tariffs.put 0 (some t) } }

/-- The part with a team in slot 1. -/
def withTeam (t : Team) (s : State) : State := { s with sce := { s.sce with teams := s.sce.teams.put 0 (some t) } }

/-- The part with a delivery in flight on lane 1. -/
def withDelivery (d : Delivery) (s : State) : State :=
  { s with sce := { s.sce with deliveries := s.sce.deliveries.put 0 (some d) } }

/-- The part with pair 1's mode replaced. -/
def withMode (m : PairMode) (s : State) : State := { s with sce := { s.sce with modes := s.sce.modes.put 0 m } }

/-- The part with frames in the desk receive queue. -/
def withRx (fs : List DeskFrame) (s : State) : State := { s with dli := { s.dli with rx := fs } }

/-- The part with eight responses in the desk transmit queue. -/
def withFullTx (s : State) : State := { s with dli := { s.dli with tx := List.replicate 8 ⟨0, 3, []⟩ } }

/-- A machine in READY on a valid full rack. -/
def readyMachine : LaneMachine := { LaneMachine.reset with state := .ready, deck := 1023, deckValid := true }

/-- A machine in a moving state with a cycle of tag 5. -/
def movingMachine (st : MachineState) : LaneMachine :=
  { LaneMachine.reset with state := st, tag := 5, inFlight := some ⟨5, .fullRack, .auto, false⟩, timer := some 12 }

/-- A machine in FAULT with its two flags. -/
def faultMachine (cleared acked : Bool) : LaneMachine :=
  { LaneMachine.reset with state := .fault, fault := some ⟨9, .normal, cleared, acked⟩ }

/-- A bowler with the frames of a list of frames of balls. -/
def bowlerOf (balls : List (List Ball)) : Bowler := ⟨[65], [], rescored balls⟩

/-- A bowler with nothing bowled. -/
def freshBowler : Bowler := ⟨[65], [], Table.fill 10 ⟨[], none, none, none⟩⟩

/-- A ball that knocked down some pins. -/
def ballOf (pins : Nat) (after : Pins) : Ball := ⟨pins, after, false, false, false, false, some 100⟩

/-- A team of bowlers at home and seated on lane 1. -/
def teamOf (st : TeamState) (inProgress : Bool) (roster : List Bowler) : Team :=
  { state := st, home := 0, seated := 0, roster := roster, bowler := 1, frame := 1, ball := 1, target := 1023, game := 1,
    autoContinue := false, reservation := none, inProgress := inProgress, recent := none }

/-- A team BOWLING with one fresh bowler. -/
def bowlingTeam : Team := teamOf .bowling true [freshBowler]

/-- A PER_GAME tariff of one band. -/
def gameTariff : Tariff := ⟨[⟨0, 500⟩], none⟩

/-- A PER_TIME tariff of two bands, with its start trigger and gate. -/
def timeTariff (t : Trigger) (g : Gate) : Tariff := ⟨[⟨0, 10⟩, ⟨600, 20⟩], some ⟨t, g, 5, 30⟩⟩

/-- A session record in a state, on tariff 0, with credit. -/
def sessionOf (st : SessionState) (credit : Option Nat) : Session := { Session.reset with state := st, id := 7, credit := credit }

/-! ### Ill-formed terms, one for each check -/

theorem test_ill_fault_code_low : (Instr.machineFault 0 0 .normal).wellFormed = false := by decide
theorem test_ill_fault_code_high : (Instr.machineFault 0 255 .safety).wellFormed = false := by decide
theorem test_ill_speed : (Instr.ballPass 0 401).wellFormed = false := by decide
theorem test_ill_correction_bowler : (Instr.correctionRequest 0 7 1 0).wellFormed = false := by decide
theorem test_ill_correction_frame : (Instr.correctionRequest 0 1 11 0).wellFormed = false := by decide
theorem test_ill_correction_reason : (Instr.correctionRequest 0 1 1 16).wellFormed = false := by decide
theorem test_ill_report :
    (Instr.cycleEndReport ⟨0, ⟨1, .fullRack, .auto, false⟩, .fault, .ready⟩).wellFormed = false := by decide
theorem test_ill_content : (Instr.deskContent ⟨0, 2, [0, 1, 1]⟩).wellFormed = false := by decide
theorem test_ill_lane_frame_dest : (Instr.deskLaneFrame 128 20 []).wellFormed = false := by decide
theorem test_ill_lane_frame_kind : (Instr.deskLaneFrame 1 32 []).wellFormed = false := by decide
theorem test_ill_lane_frame_length : (Instr.deskLaneFrame 1 20 (List.replicate 29 0)).wellFormed = false := by decide
theorem test_ill_unknown_code : (Instr.unknownRequestCode [0, 1, 1]).wellFormed = false := by decide
theorem test_ill_team_count : (Instr.teamLoad 0 1 1 0 2 [[65]]).wellFormed = false := by decide
theorem test_ill_team_name : (Instr.teamLoad 0 1 1 0 1 [List.replicate 256 65]).wellFormed = false := by decide +kernel
theorem test_ill_amend_count : (Instr.amendCommit 0 1 1 1 2 [⟨3, 0⟩]).wellFormed = false := by decide
theorem test_ill_band_count : (Instr.tariffLoad 0 0 1 2 [⟨0, 5⟩] 1 1 0 1).wellFormed = false := by decide
theorem test_well_formed_limits :
    (Instr.machineFault 0 254 .normal).wellFormed = true ∧ (Instr.ballPass 0 400).wellFormed = true ∧
    (Instr.correctionRequest 0 6 10 15).wellFormed = true ∧ (Instr.deskLaneFrame 127 31 (List.replicate 28 0)).wellFormed = true ∧
    (Instr.unknownRequestCode [0, 1]).wellFormed = true ∧ (Instr.deskContent ⟨1, 2, []⟩).wellFormed = true := by decide

/-! ### The frame check and the wire -/

/-- The check of the nine characters 1 to 9 is 29B1 hexadecimal (spec/01, the check). -/
theorem test_check_value : frameCheck [0x31, 0x32, 0x33, 0x34, 0x35, 0x36, 0x37, 0x38, 0x39] = 0x29B1 := by decide +kernel

theorem test_lane_frame_wire : laneFrameOfBytes (LaneFrame.wire ⟨1, 2, [7, 0]⟩) = some ⟨1, 2, [7, 0]⟩ := by decide +kernel
theorem test_lane_frame_bad_check : laneFrameOfBytes [1, 2, 2, 7, 0, 0, 0] = none := by decide +kernel
theorem test_no_word_is_a_command : decodeTableWord 8 0 = none ∧ State.withFetchWord State.reset 8 0 = State.reset :=
  ⟨rfl, rfl⟩

/-! ### Witnesses: for each statement, states and operands that meet its hypotheses, clause by clause -/

theorem test_meets_StepRunsTheFrontCommand :
    ({ State.reset with pending := [.partReset, .clockAdvance] } : State).pending = .partReset :: [.clockAdvance] := rfl

/-- A part whose lane 1 has a cycle whose timer has run out, and that owes nothing. -/
def cycleDue : State := withMachine { movingMachine .cycling with timer := some 0 } ground

/-- A part whose pair 1 has an overdue timer that has run out. -/
def overdueDue : State := withPair { PairRecord.reset with lift := true, transit := [⟨0, 3⟩], timer := some 0 } ground

/-- A request to read the status, on the wire. -/
def statusFrame : DeskFrame := ⟨0, 2, [0, 9, 1]⟩

/-- The part with two notices waiting. -/
def withNotices (s : State) : State :=
  { s with dli := { s.dli with notices := [.ofPart .linkError, .ofPair .unmatched 0] } }

/-- The part with 56 notice frames in the desk transmit queue. -/
def withOpenTxFull (s : State) : State := { s with dli := { s.dli with tx := List.replicate 56 ⟨0, 4, []⟩ } }

theorem test_meets_StepWithNoCommandTakesAnOwnEvent :
    ({ ground with owed := [.foul 0] } : State).pending = [] ∧
    (cycleDue.pending = [] ∧ cycleDue.owed = [] ∧ dueCycle cycleDue = some (.cycleTimerExpiry 0)) ∧
    (overdueDue.owed = [] ∧ dueCycle overdueDue = none ∧ dueOverdue overdueDue = some (.overdueTimerExpiry 0)) ∧
    (let s := withRx [statusFrame] ground
     s.owed = [] ∧ dueCycle s = none ∧ dueOverdue s = none ∧ deskHead s = some (.status 9)) ∧
    (let s := withNotices ground
     s.owed = [] ∧ dueCycle s = none ∧ dueOverdue s = none ∧ deskHead s = none ∧ s.dli.notices ≠ [] ∧ s.dli.tx.length < 56) ∧
    (let s := withOpenTxFull (withNotices ground)
     s.owed = [] ∧ dueCycle s = none ∧ dueOverdue s = none ∧ deskHead s = none ∧ 56 ≤ s.dli.tx.length) ∧
    ground.dli.notices = [] := by decide +kernel

theorem test_meets_EachRequestTakenIsAnsweredOnce :
    requestHeader (.status 9) = some (9, 1) ∧ requestHeader (.unknownRequestCode []) = some (0, 0) ∧
    8 ≤ (withFullTx ground).responsesQueued ∧ ground.responsesQueued < 8 := by decide +kernel

theorem test_meets_DeskFramesAreTakenFromTheHead :
    (withRx [statusFrame] ground).dli.rx = statusFrame :: [] ∧
    (statusFrame.kind = 2 ∧ statusFrame.addr = 0) ∧
    (let f : DeskFrame := ⟨127, 1, 31 :: List.replicate 28 0⟩
     f.payload = 31 :: List.replicate 28 0 ∧ f.kind = 1 ∧ 1 ≤ f.addr.toNat ∧ f.addr.toNat ≤ 127 ∧ (31#8).toNat ≤ 31 ∧
     (List.replicate 28 (0 : Byte)).length ≤ 28) ∧
    (let f : DeskFrame := ⟨1, 2, []⟩
     f.kind ≠ 1 ∧ ¬ (f.kind = 2 ∧ f.addr = 0)) ∧
    (let f : DeskFrame := ⟨0, 1, [20]⟩
     f.kind = 1 ∧ f.addr = 0) ∧
    (let f : DeskFrame := ⟨128, 1, [20]⟩
     f.kind = 1 ∧ 127 < f.addr.toNat) ∧
    (let f : DeskFrame := ⟨1, 1, 20 :: List.replicate 29 0⟩
     f.kind = 1 ∧ 29 < f.payload.length) ∧
    (let f : DeskFrame := ⟨1, 1, [32]⟩
     f.kind = 1 ∧ f.payload.head?.any (fun k => decide (31 < k.toNat)) = true) ∧
    State.reset.responsesQueued < 8 := by decide +kernel

/-- Payloads that fail the form check: too short, a code not in the catalogue, fields of a wrong length, a count that is not that of
the bytes behind it; and payloads that pass it, of a fixed length and of the three forms that have none. -/
theorem test_meets_DeskFramesAreTakenFromTheHead_form :
    ([0, 9] : List Byte).length < 3 ∧
    (∀ payload ∈ [[0, 9, 13], [0, 9, 1, 0], [0, 9, 41, 1, 1, 0, 2, 1, 65], [0, 9, 50, 1, 1, 1, 2, 3, 0], [0, 9, 64, 0, 1, 1, 0, 0, 0, 5]],
      requestOfPayload payload = .unknownRequestCode payload) ∧
    ([0, 9, 41, 1, 1, 0, 1, 1, 65] : List Byte) =
      [0, 9, 41] ++ ([1, 1, 0, 1] ++ [[(65 : Byte)]].flatMap fun n => BitVec.ofNat 8 n.length :: n) ∧
    ([3, 0, 4, 0] : List Byte).length = 2 * (2#8).toNat ∧ ([0, 0, 0, 5, 1, 1, 0, 1] : List Byte).length = 4 * (1#8).toNat + 4 ∧
    requestHeader (requestOfPayload [0, 9, 41, 1, 1, 0, 1, 1, 65]) = some (9, 41) ∧
    requestHeader (requestOfPayload [0, 9, 50, 1, 1, 1, 2, 3, 0, 4, 0]) = some (9, 50) ∧
    requestHeader (requestOfPayload [0, 9, 64, 0, 1, 1, 0, 0, 0, 5, 1, 1, 0, 1]) = some (9, 64) := by decide +kernel

theorem test_meets_FramesAreCheckedFirst_lane :
    (∀ f : LaneFrame, f.payload.length ≤ 28 → ([] : List Byte) ≠ f.wire) ∧
    (∀ f : LaneFrame, f.payload.length ≤ 28 → ([1, 2, 2, 7, 0, 0, 0] : List Byte) ≠ f.wire) ∧
    (⟨1, 1, List.replicate 28 0⟩ : LaneFrame).payload.length ≤ 28 := by
  refine ⟨?_, ?_, by decide⟩
  · intro f _ h
    have := congrArg List.length h
    simp [LaneFrame.wire] at this
  · intro f hf h
    have back : laneFrameOfBytes f.wire = some f := Laws.laneFrameOfBytes_wire f hf
    rw [← h, test_lane_frame_bad_check] at back
    exact absurd back (by simp)

/-- The part with one disposition replaced. -/
def withDisposition (r : Role) (k : Fin 32) (d : Disposition) (s : State) : State :=
  { s with frr := { s.frr with
    dispositions := s.frr.dispositions.put (roleIndex r) ((s.frr.dispositions.at (roleIndex r)).put k d) } }

theorem test_meets_UpstreamFramesAreClassified :
    (⟨1, 1, List.replicate 28 0⟩ : LaneFrame).payload.length ≤ 28 ∧ State.reset.mrp.part = .config ∧
    (ground.mrp.part ≠ .config ∧ resolveUp 9 ground = none) ∧
    (let s := withMachine { readyMachine with state := .service } ground
     s.mrp.part ≠ .config ∧ resolveUp 1 s = some (.ps 0) ∧ (s.machine 0).state = .service) ∧
    (resolveUp 1 ground = some (.ps 0) ∧ (ground.machine 0).state ≠ .service ∧
     actedOn (Node.ps 0).role (2#8).toNat = true ∧ nodeEvents (.ps 0) ⟨1, 2, [7, 2]⟩ ground = none) ∧
    (nodeEvents (.ps 0) ⟨1, 2, [7, 1]⟩ ground = some [.cycleDone 0 7 .aborted] ∧ ground.disposition .ps 2 = .consume) ∧
    (withDisposition .ps 2 .consumeCopy ground).disposition .ps 2 = .consumeCopy ∧
    (actedOn .ps 31 = false ∧ ground.disposition .ps 31 = .forward) ∧
    (withDisposition .ps 31 .drop ground).disposition .ps 31 = .drop ∧
    (resolveUp 2 ground = some (.fl 0) ∧ resolveUp 3 ground = some (.cn 0) ∧ resolveUp 4 ground = some (.br 0)) := by
  decide +kernel

theorem test_meets_ActedOnFramesReachTheirBlocks :
    (2#8).toNat > 1 ∧ 1 ≤ (254#8).toNat ∧ (254#8).toNat ≤ 254 ∧ (1#8).toNat ≤ 254 ∧ (255#8) = 255 ∧
    (word16 1 144).toNat ≤ 400 ∧ 400 < (word16 1 145).toNat ∧
    (actedOn (Node.fl 0).role (5#8).toNat = true ∧ ([1] : List Byte).length ≠ 2) := by decide +kernel

theorem test_meets_AddressesResolveThroughTheLaneMap :
    resolveUp 1 ground = some (.ps 0) ∧ resolveUp 2 ground = some (.fl 0) ∧ resolveUp 3 ground = some (.cn 0) ∧
    resolveUp 4 ground = some (.br 0) ∧ resolveUp 5 ground = none ∧ resolveDown 5 ground = none ∧
    (∀ enabled ∈ [true, false],
      let s : State := { ground with frr := { ground.frr with
        lanes := ground.frr.lanes.put 1 ⟨enabled, some 5, some 1, some 4⟩ } }
      resolveUp 5 s = (if enabled then some (.ps 1) else none) ∧ resolveDown 5 s = some (.ps 1) ∧
      resolveUp 1 s = some (.ps 0) ∧ resolveUp 4 s = (if enabled then some (.cn 1) else some (.br 0)) ∧
      resolveDown 4 s = resolveUp 4 s) := by decide +kernel

theorem test_meets_FramesAreCheckedFirst_desk :
    (∀ f : DeskFrame, f.payload.length ≤ 512 → ([] : List Byte) ≠ f.wire) ∧
    (⟨1, 1, List.replicate 512 0⟩ : DeskFrame).payload.length ≤ 512 ∧
    ground.dli.rx.length < 16 ∧ ¬ (withRx (List.replicate 16 statusFrame) ground).dli.rx.length < 16 := by
  refine ⟨fun f _ h => ?_, by decide +kernel⟩
  have := congrArg List.length h
  simp [DeskFrame.wire] at this

/-- The part with sixteen frames waiting to go down the Lane Link. -/
def withForwardFull (s : State) : State :=
  { s with lli := { s.lli with forwardDown := List.replicate 16 ⟨1, 20, []⟩ } }

theorem test_meets_DeskLaneFramesPassOrAreRefused :
    (State.reset.mrp.part = .config ∧ State.reset.lli.forwardDown.length < 16) ∧
    ¬ (withForwardFull State.reset).lli.forwardDown.length < 16 ∧
    (ground.mrp.part ≠ .config ∧ resolveDown 127 ground = none ∧ resolveDown 9 ground = none) ∧
    ((9#8) ≠ 127 ∧ resolveDown 1 ground = some (.ps 0) ∧ (ground.machine 0).state ≠ .service ∧ ground.mrp.part = .run) ∧
    ((inPart .halting ground).mrp.part = .halting ∧ (inPart .halted ground).mrp.part = .halted ∧
      resolveDown 1 (inPart .halted ground) = some (.ps 0)) ∧
    ((withMachine { readyMachine with state := .service } ground).machine 0).state = .service ∧
    resolveDown 4 ground = some (.br 0) ∧ resolveDown 2 ground = some (.fl 0) ∧ resolveDown 3 ground = some (.cn 0) := by
  decide +kernel

/-- The part whose Lane Link has a STOP marked for lane 1, stopping on the cycle in flight. -/
def stopMarked : State :=
  let s := withMachine (movingMachine .stopping) ground
  { s with lli := { s.lli with stopMarks := s.lli.stopMarks.put 0 (some 5) } }

/-- The part that lists a CYCLE for lane 1. -/
def cycleListed (st : MachineState) : State :=
  let s := withMachine (movingMachine st) ground
  { s with lli := { s.lli with cycleList := [(0, 5)] } }

/-- The part with console traffic on lane 1. -/
def consoleWaiting (codes : List ConsoleCode) : State :=
  { ground with lli := { ground.lli with console := ground.lli.console.put 0 ⟨true, codes⟩, consoleHadTurn := false } }

theorem test_meets_TheDownstreamLineFollowsThePrecedence_stop :
    stopMarked.lli.stopMarks.at 0 = some 5 ∧ (stopMarked.machine 0).inFlight = some ⟨5, .fullRack, .auto, false⟩ ∧
    (stopMarked.laneEntry 0).ps = some 1 ∧ stopMarked.lli.cycleList = [] ∧ (stopMarked.machine 0).state = .stopping := by
  decide +kernel

theorem test_meets_TheDownstreamLineFollowsThePrecedence_cycle :
    ∀ st ∈ [MachineState.cycling, .stopping],
      (cycleListed st).lli.cycleList = (0, 5) :: [] ∧
      ((cycleListed st).machine 0).inFlight = some ⟨5, .fullRack, .auto, false⟩ ∧
      ((cycleListed st).laneEntry 0).ps = some 1 ∧ (∀ l, (cycleListed st).lli.stopMarks.at l = none) ∧
      ((cycleListed st).machine 0).state = st := by decide +kernel

/-- The part with a LIFT marked for pair 1. -/
def liftMarked : State := { ground with lli := { ground.lli with liftMarks := ground.lli.liftMarks.put 0 true } }

/-- The part with a PROBE marked for lane 1. -/
def probeMarked : State := { ground with lli := { ground.lli with probeMarks := ground.lli.probeMarks.put 0 true } }

theorem test_meets_TheDownstreamLineFollowsThePrecedence_lift :
    (liftMarked.pairEntry 0).br = some 4 ∧ (∀ l, liftMarked.lli.stopMarks.at l = none) ∧ liftMarked.lli.cycleList = [] ∧
    liftMarked.lli.liftMarks.at 0 = true := by decide +kernel

theorem test_meets_TheDownstreamLineFollowsThePrecedence_probe :
    (probeMarked.laneEntry 0).ps = some 1 ∧ (∀ l, probeMarked.lli.stopMarks.at l = none) ∧ probeMarked.lli.cycleList = [] ∧
    (∀ p, probeMarked.lli.liftMarks.at p = false) ∧ probeMarked.lli.probeMarks.at 0 = true := by decide +kernel

theorem test_meets_TheDownstreamLineFollowsThePrecedence_console :
    ∀ codes ∈ [[], [ConsoleCode.busy]],
      (lanesAfter (consoleWaiting codes).lli.consolePointer).find? (fun k => ((consoleWaiting codes).lli.console.at k).traffic)
        = some 0 ∧
      ((consoleWaiting codes).laneEntry 0).cn = some 3 ∧ (∀ l, (consoleWaiting codes).lli.stopMarks.at l = none) ∧
      (consoleWaiting codes).lli.cycleList = [] ∧ (∀ p, (consoleWaiting codes).lli.liftMarks.at p = false) ∧
      (∀ l, (consoleWaiting codes).lli.probeMarks.at l = false) ∧ (consoleWaiting codes).lli.forwardDown = [] ∧
      ((consoleWaiting codes).lli.console.at 0).notices = codes := by decide +kernel

/-- The part with one frame for a console waiting to go down. -/
def forwardWaiting : State := { ground with lli := { ground.lli with forwardDown := [⟨3, 20, []⟩] } }

/-- The part whose entries hold no address. -/
def unmapped (s : State) : State :=
  { s with frr := { s.frr with lanes := Table.fill 32 ⟨true, none, none, none⟩, pairs := Table.fill 16 ⟨none, 12, 2, 0⟩ } }

/-- The part with a frame for an address waiting to go down, and behind it one for lane 1's console. -/
def queuedFor (a : Byte) : State := { ground with lli := { ground.lli with forwardDown := [⟨a, 17, [5]⟩, ⟨3, 20, []⟩] } }

theorem test_meets_TheDownstreamLineFollowsThePrecedence_forward :
    forwardWaiting.lli.forwardDown = ⟨3, 20, []⟩ :: [] ∧ (∀ l, (forwardWaiting.lli.console.at l).traffic = false) ∧
    forwardWaiting.lli.consoleHadTurn = true ∧ resolveDown 3 forwardWaiting = some (.cn 0) := by decide +kernel

/-- Marks that are discarded unsent: a STOP and a CYCLE of another machine state, of another tag and without a PS address, a LIFT and a
PROBE without theirs. -/
theorem test_meets_TheDownstreamLineFollowsThePrecedence_discarded :
    (∀ m ∈ [movingMachine .cycling, { movingMachine .stopping with inFlight := some ⟨6, .fullRack, .auto, false⟩ }, readyMachine],
      let s := withMachine m stopMarked
      s.lli.stopMarks.at 0 = some 5 ∧ s.lli.cycleList = [] ∧
      ((s.machine 0).state ≠ .stopping ∨ (s.machine 0).inFlight.map (·.tag) ≠ some 5)) ∧
    (∀ m ∈ [readyMachine, { movingMachine .cycling with inFlight := some ⟨6, .fullRack, .auto, false⟩ }],
      let s := withMachine m (cycleListed .cycling)
      s.lli.cycleList = (0, 5) :: [] ∧ (∀ l, s.lli.stopMarks.at l = none) ∧
      (((s.machine 0).state ≠ .cycling ∧ (s.machine 0).state ≠ .stopping) ∨ (s.machine 0).inFlight.map (·.tag) ≠ some 5)) ∧
    (∀ s ∈ [stopMarked, cycleListed .cycling, probeMarked], ((unmapped s).laneEntry 0).ps = none) ∧
    (unmapped stopMarked).lli.stopMarks = stopMarked.lli.stopMarks ∧
    ((unmapped liftMarked).pairEntry 0).br = none ∧ (unmapped liftMarked).lli.liftMarks.at 0 = true ∧
    (unmapped probeMarked).lli.probeMarks.at 0 = true := by decide +kernel

/-- Lowest-tier turns that send no frame: console traffic without a CN address, and a frame to a PS node refused at its turn. -/
theorem test_meets_TheDownstreamLineFollowsThePrecedence_turnless :
    (let s := unmapped (consoleWaiting [.busy])
     (lanesAfter s.lli.consolePointer).find? (fun k => (s.lli.console.at k).traffic) = some 0 ∧ (s.laneEntry 0).cn = none ∧
     s.lli.forwardDown = [] ∧ s.lli.cycleList = [] ∧ ∀ l, s.lli.stopMarks.at l = none) ∧
    (∀ part ∈ [PartState.halting, .halted, .run],
      let s := inPart part (queuedFor 1)
      s.lli.forwardDown = ⟨1, 17, [5]⟩ :: [⟨3, 20, []⟩] ∧ (∀ l, (s.lli.console.at l).traffic = false) ∧
      resolveDown 1 s = some (.ps 0) ∧ s.mrp.part = part ∧ (s.machine 0).state ≠ .service) := by decide +kernel

theorem test_meets_TheDownstreamLineFollowsThePrecedence_idle :
    (∀ l, (ground.lli.console.at l).traffic = false) ∧ ground.lli.forwardDown = [] ∧
    (∀ l, ground.lli.stopMarks.at l = none ∧ ground.lli.probeMarks.at l = false) ∧ ground.lli.cycleList = [] ∧
    ∀ p, ground.lli.liftMarks.at p = false := by decide +kernel

theorem test_meets_NoticesAreRaisedWithdrawnAndDrained :
    (withNotices ground).dli.notices.Nodup ∧ Notice.ofPart .rxOverrun ∉ (withNotices ground).dli.notices ∧
    Notice.ofPair .unmatched 0 ∈ (withNotices ground).dli.notices ∧
    ((withNotices ground).dli.notices = .ofPart .linkError :: [.ofPair .unmatched 0] ∧ (withNotices ground).dli.tx.length < 56) ∧
    ground.dli.notices = [] ∧ 56 ≤ (withOpenTxFull ground).dli.tx.length := by decide +kernel

/-- A STANDBY team, a session on a PER_TIME tariff, a correction and a refusal record on lane 1. -/
theorem test_meets_DisplaysAndNoticesCarryTheirContent :
    ground.seatedTeam 0 = none ∧
    (let t := teamOf (.standby .new) false [freshBowler]
     let s := withTeam t (withSession (sessionOf .running (some 6)) (withTariff (timeTariff .onOpen .none) ground))
     s.seatedTeam 0 = some (0, t) ∧ s.terms 0 = some ⟨.onOpen, .none, 5, 30⟩) ∧
    (let c : Correction := ⟨0, 1, 1, 2⟩
     let s : State := { ground with
       sce := { ground.sce with corrections := ground.sce.corrections.put 0 (some c) }
       frr := { ground.frr with laneRefusals := ground.frr.laneRefusals.put 0 (some ⟨1, .queueFull⟩), partRefusal := some ⟨127, .unknownDest⟩ } }
     s.correction 0 = some c ∧ s.frr.laneRefusals.at 0 = some ⟨1, .queueFull⟩ ∧ s.frr.partRefusal = some ⟨127, .unknownDest⟩) := by
  decide +kernel

/-- What the hypotheses of every request's statement share: a response may be queued, the part states, the lane, pair, slot and tariff
numbers at both ends of their ranges and past them. -/
theorem test_meets_every_request :
    ground.responsesQueued < 8 ∧ State.reset.responsesQueued < 8 ∧ State.reset.mrp.part = .config ∧ ground.mrp.part = .run ∧
    (inPart .halting ground).mrp.part = .halting ∧ (inPart .halted ground).mrp.part = .halted ∧
    laneOf (0#8).toNat = none ∧ laneOf (1#8).toNat = some 0 ∧ laneOf (32#8).toNat = some 31 ∧ laneOf (33#8).toNat = none ∧
    pairNumbered (0#8).toNat = none ∧ pairNumbered (1#8).toNat = some 0 ∧ pairNumbered (16#8).toNat = some 15 ∧
    pairNumbered (17#8).toNat = none ∧ slotOf (0#8).toNat = none ∧ slotOf (1#8).toNat = some 0 ∧ slotOf (32#8).toNat = some 31 ∧
    slotOf (33#8).toNat = none ∧ tariffOf (0#8).toNat = some 0 ∧ tariffOf (15#8).toNat = some 15 ∧ 15 < (16#8).toNat ∧
    ground.enabled 0 = true ∧ ground.enabled 31 = false ∧ ground.pairEnabled 0 = true ∧ ground.pairEnabled 15 = false := by
  decide +kernel

/-- Lane 1 is enabled and out of CONFIG whatever the state of its machine. -/
theorem test_meets_NodeReportsAreTakenByState :
    (∀ m ∈ [readyMachine, { readyMachine with deckValid := false }, LaneMachine.reset, movingMachine .cycling,
        movingMachine .stopping, faultMachine false false, faultMachine true true, { readyMachine with state := .service }],
      (withMachine m ground).mrp.part ≠ .config ∧ (withMachine m ground).enabled 0 = true ∧ (withMachine m ground).machine 0 = m) ∧
    (faultMachine false true).fault = some ⟨9, .normal, false, true⟩ ∧
    (faultMachine false false).fault = some ⟨9, .normal, false, false⟩ := by decide +kernel

theorem test_meets_ACompletionEndsTheCycleOrIsStray :
    (∀ st ∈ [MachineState.cycling, .stopping], ∀ asked ∈ [true, false],
      let s := withMachine { movingMachine st with serviceRequested := asked } ground
      (s.machine 0).inFlight = some ⟨5, .fullRack, .auto, false⟩ ∧ s.mrp.part ≠ .config ∧ s.enabled 0 = true ∧
      (s.machine 0).state = st ∧ s.cdp.inject = none ∧ (s.machine 0).serviceRequested = asked) ∧
    (∀ m ∈ [LaneMachine.reset, readyMachine, faultMachine false false, { movingMachine .cycling with tag := 6 }],
      ∀ late ∈ [some (LateRecord.mk 9 none), none],
      let s := withMachine { m with late := late } ground
      s.mrp.part ≠ .config ∧ s.enabled 0 = true ∧ (s.machine 0).state ≠ .service ∧
      ((s.machine 0).state = .cycling → (s.machine 0).inFlight.map (·.tag) ≠ some 9) ∧ (s.machine 0).late = late) := by
  decide +kernel

/-- A bound inject that is cancelled, held by HALT or met by a service request. -/
theorem test_meets_ACompletionEndsTheCycleOrIsStray_bound :
    (∀ cancelled ∈ [true, false], ∀ halt ∈ [true, false], ∀ asked ∈ [true, false],
      let s : State := { ground with
        psv := ground.psv.put 0 { movingMachine .stopping with serviceRequested := asked, holds := { HoldSet.empty with halt := halt } }
        cdp := { ground.cdp with inject := some ⟨0, .pitClear, true, true, cancelled⟩ } }
      (s.machine 0).inFlight = some ⟨5, .fullRack, .auto, false⟩ ∧ s.cdp.inject = some ⟨0, .pitClear, true, true, cancelled⟩ ∧
      (s.holds 0).halt = halt ∧ (s.machine 0).serviceRequested = asked) := by
  decide +kernel

theorem test_meets_TimeoutsAndFaultsTakeTheLaneToFault_timeout :
    (∀ st ∈ [MachineState.cycling, .stopping],
      (movingMachine st).inFlight = some ⟨5, .fullRack, .auto, false⟩ ∧ (movingMachine st).state = st) ∧
    LaneMachine.reset.inFlight = none ∧ (readyMachine.state ≠ .cycling ∧ readyMachine.state ≠ .stopping) := by decide

theorem test_meets_TimeoutsAndFaultsTakeTheLaneToFault_fault :
    (ground.mrp.part ≠ .config ∧ ground.enabled 0 = true ∧ (ground.machine 0).state ≠ .service) ∧
    ground.mrp.params.safetyHalts = true ∧
    ((withMachine (movingMachine .cycling) ground).machine 0).inFlight = some ⟨5, .fullRack, .auto, false⟩ ∧
    ground.enabled 1 = false := by decide +kernel

theorem test_meets_AFaultIsAcknowledged :
    ∀ cleared ∈ [true, false],
      let s := withMachine (faultMachine cleared false) ground
      (s.machine 0).fault = some ⟨9, .normal, cleared, false⟩ ∧ s.enabled 0 = true ∧ (s.machine 0).state = .fault := by
  decide +kernel

theorem test_meets_ServiceIsEnteredAndLeft :
    (∀ m ∈ [LaneMachine.reset, readyMachine, faultMachine false false, movingMachine .cycling, movingMachine .stopping,
        { movingMachine .cycling with serviceRequested := true }, { readyMachine with state := .service }],
      (withMachine m ground).enabled 0 = true ∧ (withMachine m ground).mrp.part = .run ∧ (withMachine m ground).machine 0 = m) ∧
    (inPart .halted ground).enabled 0 = true := by decide +kernel

theorem test_meets_TheDeskHoldsAndReleasesALane :
    laneOf (1#8).toNat = some 0 ∧ ground.enabled 0 = true ∧ (ground.holds 0).desk = false ∧ ground.enabled 1 = false := by
  decide +kernel

/-- The part with a READY lane 1 and an AUTO entry, an AUTO back-up or a BATCH back-up on it. -/
def withAuto (a : AutoRequest) (s : State) : State := { s with cdp := { s.cdp with auto := s.cdp.auto.put 0 (some a) } }

/-- The part with a back-up on lane 1. -/
def withBackup (b : Backup) (s : State) : State := { s with cdp := { s.cdp with backups := s.cdp.backups.put 0 (some b) } }

/-- The part with a request in the inject slot. -/
def withInject (i : InjectRequest) (s : State) : State := { s with cdp := { s.cdp with inject := some i } }

/-- The part with one entry in the batch queue. -/
def withBatch (e : BatchEntry) (s : State) : State := { s with cdp := { s.cdp with batch := [e] } }

/-- A pass with a slot free and something eligible, with no slot free, and with nothing eligible; and batch entries whose cursor stays,
skips down, and moves below the first lane. -/
theorem test_meets_PassesGrantUntilNothingIsEligible :
    (let s := withAuto .fullRack (withMachine readyMachine ground)
     (settleBatch s).slotsInUse < s.mrp.params.slotBudget ∧ choose (settleBatch s) = some (.autoEntry 0 .fullRack) ∧
     s.slotsInUse ≤ s.mrp.params.slotBudget) ∧
    (let s := withMachine (movingMachine .cycling) ground
     let t : State := { s with mrp := { s.mrp with params := { s.mrp.params with slotBudget := 1 } } }
     t.mrp.params.slotBudget ≤ (settleBatch t).slotsInUse) ∧
    choose (settleBatch ground) = none ∧
    (let s : State := { ground with cdp := { ground.cdp with batch := List.replicate 5 ⟨1, 1, .warm, 1⟩ } }
     s.mrp.params.batchLow < s.cdp.batch.length ∧ (settledBatch s s.cdp.batch).length ≤ s.mrp.params.batchLow) ∧
    (let s := withMachine readyMachine ground
     (s.enabled 0 = true ∧ (s.machine 0).state ≠ .off ∧ s.enabled 1 = false ∧ (ground.machine 0).state = .off) ∧
     settledBatch s [⟨1, 2, .warm, 2⟩] = [⟨1, 2, .warm, 1⟩] ∧ settledBatch s [⟨1, 1, .warm, 1⟩] = [⟨1, 1, .warm, 1⟩] ∧
     settledBatch s [⟨2, 2, .warm, 2⟩] = [] ∧ settledBatch ground [⟨1, 2, .warm, 2⟩] = []) := by decide +kernel

theorem test_meets_GrantsGoToTheEligibleChoice :
    (let s := withMachine readyMachine ground
     choose (withInject ⟨0, .pitClear, false, false, false⟩ s) = some (.inject 0 .pitClear) ∧
     choose (withAuto .fullRack s) = some (.autoEntry 0 .fullRack) ∧
     choose (withBackup ⟨.fullRack, .auto⟩ s) = some (.autoBackup 0 .fullRack) ∧
     choose (withBackup ⟨.warm, .batch⟩ s) = some (.batchBackup 0 .warm) ∧
     choose (withBatch ⟨1, 1, .warm, 1⟩ s) = some (.batchHead 0 .warm) ∧ choose s = none ∧
     s.mrp.params.ranks = .inject :: [.auto, .batch] ∧ choiceIn (withAuto .fullRack s) .inject = none ∧
     (withBatch ⟨1, 1, .warm, 1⟩ s).cdp.batch.head? = some ⟨1, 1, .warm, 1⟩ ∧ s.backup 0 = none ∧
     s.holds 0 = ⟨false, false, false, false, false⟩ ∧ (s.machine 0).state = .ready) ∧
    (∀ mark ∈ [none, some 3],
      let s := withMachine (movingMachine .cycling) ground
      let t : State := { s with lli := { s.lli with stopMarks := s.lli.stopMarks.put 0 mark } }
      (t.machine 0).inFlight = some ⟨5, .fullRack, .auto, false⟩ ∧ (t.machine 0).state = .cycling ∧ t.lli.stopMarks.at 0 = mark) ∧
    (let s := withMachine (movingMachine .stopping) ground
     (s.machine 0).state = .stopping ∧ (s.machine 0).state ≠ .cycling) := by decide +kernel

/-- Of two lanes with an entry the one behind the rotation pointer comes first. -/
theorem test_rotation :
    ∀ pointer ∈ [(0 : Lane), 31],
      let s := withAuto .fullRack (withMachine readyMachine ground)
      let t : State := { s with
        psv := s.psv.put 1 readyMachine
        cdp := { s.cdp with auto := s.cdp.auto.put 1 (some .fullRack), pointer := pointer } }
      choose t = some (.autoEntry (if pointer = 0 then 1 else 0) .fullRack) := by decide +kernel

theorem test_meets_RequestsMergeAndAreKept :
    (∀ k ∈ [CycleKind.fullRack, .respot 7], (withBackup ⟨k, .auto⟩ ground).backup 0 = some ⟨k, .auto⟩) ∧
    ((withBackup ⟨.warm, .batch⟩ ground).backup 0).map (·.origin) ≠ some .auto ∧
    (ground.backup 0).map (·.origin) ≠ some .auto ∧
    (Instr.autoPost 0 .fullRack ∈ ({ ground with owed := [.autoPost 0 .fullRack] } : State).owed ∧
      Instr.autoPost 0 .fullRack ∉ ground.owed) ∧
    (∀ cancelled ∈ [true, false], ∀ st ∈ [MachineState.cycling, .stopping],
      let i : InjectRequest := ⟨0, .pitClear, true, true, cancelled⟩
      let s := withInject i (withMachine (movingMachine st) ground)
      s.cdp.inject.filter (fun i => i.lane == 0 && i.bound) = some i ∧ (s.holds 0).halt = false ∧ (s.machine 0).state = st ∧
      (s.machine 0).inFlight = some ⟨5, .fullRack, .auto, false⟩ ∧ (s.machine 0).serviceRequested = false ∧
      s.mrp.part ≠ .config ∧ s.enabled 0 = true) := by decide +kernel

/-- The reports that are kept as a back-up, discarded by the flag, replaced by a live full-rack inject, and dropped beside a back-up; and
an inject that is handed its lane, one that is cancelled, and one that stays unbound. -/
theorem test_meets_RequestsMergeAndAreKept_reports :
    let report : CycleReport := ⟨0, ⟨5, .fullRack, .auto, false⟩, .aborted, .ready⟩
    let s := withMachine (movingMachine .stopping) ground
    let bound (k : CycleKind) (cancelled : Bool) : InjectRequest := ⟨0, k, true, true, cancelled⟩
    (s.cdp.discardOnAbort.at 0 = false ∧ s.backup 0 = none ∧ (settleReport report s).backup 0 = some ⟨.fullRack, .auto⟩) ∧
    (settleReport report { s with cdp := { s.cdp with discardOnAbort := s.cdp.discardOnAbort.put 0 true } }).backup 0 = none ∧
    (settleReport report (withInject (bound .fullRack false) s)).backup 0 = none ∧
    (settleReport report (withInject (bound .pitClear false) s)).backup 0 = some ⟨.fullRack, .auto⟩ ∧
    (settleReport report (withBackup ⟨.warm, .batch⟩ s)).backup 0 = some ⟨.warm, .batch⟩ ∧
    handover report (withInject (bound .pitClear false) s) = some .pitClear ∧
    handover report (withInject (bound .pitClear true) s) = none ∧
    handover ⟨0, ⟨5, .fullRack, .auto, false⟩, .timeout, .fault⟩ (withInject (bound .pitClear false) s) = none ∧
    (settleReport ⟨0, ⟨5, .fullRack, .auto, false⟩, .timeout, .fault⟩ (withInject (bound .pitClear false) s)).cdp.inject
      = some ⟨0, .pitClear, true, false, false⟩ := by decide +kernel

theorem test_meets_AnInjectIsTakenOrCancelled :
    (1 ≤ (1#8).toNat ∧ (3#8).toNat ≤ 3 ∧ (1023#16).toNat ≤ 1023 ∧ (1#8).toNat ≤ 1) ∧
    ¬ (4#8).toNat ≤ 3 ∧ ¬ (1024#16).toNat ≤ 1023 ∧ ¬ (2#8).toNat ≤ 1 ∧
    injectKindOf (1#8).toNat 0 = some .fullRack ∧ injectKindOf (2#8).toNat 1023 = some (.respot 1023) ∧
    injectKindOf (3#8).toNat 0 = some .pitClear ∧
    (ground.enabled 0 = true ∧ ground.cdp.inject = none ∧ (inPart .halting ground).mrp.part ≠ .run) ∧
    (∀ bound ∈ [true, false],
      let s := withInject ⟨0, .pitClear, true, bound, false⟩ ground
      s.cdp.inject ≠ none ∧ s.cdp.inject = some ⟨0, .pitClear, true, bound, false⟩) ∧
    (withInject ⟨0, .pitClear, true, true, true⟩ ground).cdp.inject = some ⟨0, .pitClear, true, true, true⟩ ∧
    (withInject ⟨1, .pitClear, true, true, false⟩ ground).cdp.inject = some ⟨1, .pitClear, true, true, false⟩ := by
  decide +kernel

/-- An INJECT that is granted, one that binds to the cycle of a class ranked below it, and one that waits; and new class ranks. -/
theorem test_meets_AnInjectIsTakenOrCancelled_outcomes :
    (let placed (m : LaneMachine) (preempt : Bool) := withInject ⟨0, .pitClear, preempt, false, false⟩ (withMachine m ground)
     let t (m : LaneMachine) (preempt : Bool) := dispatchPass (preemptionCheck (placed m preempt))
     (t readyMachine false).cdp.inject = none ∧
     ((movingMachine .cycling).inFlight = some ⟨5, .fullRack, .auto, false⟩ ∧ (movingMachine .cycling).holds.halt = false ∧
       ground.mrp.params.ranks.idxOf .inject < ground.mrp.params.ranks.idxOf .auto) ∧
     (t (movingMachine .cycling) true).cdp.inject = some ⟨0, .pitClear, true, true, false⟩ ∧
     (t (movingMachine .cycling) false).cdp.inject = some ⟨0, .pitClear, false, false, false⟩) ∧
    (classOf (2#8).toNat = some .auto ∧ classOf (1#8).toNat = some .inject ∧ classOf (3#8).toNat = some .batch ∧
      [CycleClass.auto, .inject, .batch].Nodup ∧ ground.mrp.params.ranks ≠ [.auto, .inject, .batch] ∧
      ground.mrp.params.ranks = [.inject, .auto, .batch]) := by decide +kernel

theorem test_meets_BatchEntriesAreAddedAndFlushed :
    (1 ≤ (1#8).toNat ∧ (1#8).toNat ≤ (32#8).toNat ∧ (32#8).toNat ≤ 32) ∧ ¬ (2#8).toNat ≤ (1#8).toNat ∧
    batchKindOf (1#8).toNat = some .fullRack ∧ batchKindOf (4#8).toNat = some .deckOff ∧ batchKindOf (5#8).toNat = some .warm ∧
    ground.cdp.batch.length < 16 ∧
    16 ≤ ({ ground with cdp := { ground.cdp with batch := List.replicate 16 ⟨1, 1, .warm, 1⟩ } } : State).cdp.batch.length := by
  decide +kernel

/-- The part with one bowler at play on a READY lane. -/
def playing : State := withTeam bowlingTeam (withMachine readyMachine ground)

/-- A delivery in flight at a full rack. -/
def liveDelivery : Delivery := ⟨true, 120, 1023, false⟩

theorem test_meets_DeliveriesBeginAndEnd :
    (playing.mrp.part ≠ .config ∧ playing.enabled 0 = true ∧ playing.delivery 0 = none) ∧
    (playing.seatedTeam 0 = some (0, bowlingTeam) ∧ playing.bowlingTeam 0 = some (0, bowlingTeam) ∧
      bowlingTeam.state = .bowling ∧ (playing.machine 0).deck = bowlingTeam.target ∧ (playing.machine 0).state = .ready ∧
      (playing.machine 0).deckValid = true ∧ playing.auto 0 = none ∧ playing.backup 0 = none) ∧
    (withDelivery liveDelivery playing).delivery 0 = some liveDelivery ∧ ground.bowlingTeam 0 = none ∧
    ground.enabled 1 = false ∧ bowlingTeam.target = 1023 := by decide +kernel

theorem test_meets_TargetsArePosted :
    (⟨.cycling, 0, false⟩ : PinfallView).machine ≠ .ready ∧ (⟨.ready, 1023, true⟩ : PinfallView).machine = .ready ∧
    playing.bowlingTeam 0 = some (0, bowlingTeam) ∧ ground.bowlingTeam 0 = none ∧
    ((withDelivery ⟨false, 120, 7, false⟩ playing).delivery 0).map (·.live) = some false ∧
    (playing.delivery 0 = none ∧ (⟨.ready, 7, true⟩ : PinfallView).deck ≠ bowlingTeam.target) ∧
    (1023 : Pins) = bowlingTeam.target ∧ (7 : Pins) ≠ bowlingTeam.target := by decide +kernel

/-- A bowler whose first frame is open, second a strike, and tenth complete after two or three balls. -/
def veteran (tenth : List Ball) : Bowler :=
  bowlerOf ([ballOf 3 127, ballOf 4 7] :: [ballOf 10 0] :: (List.replicate 7 [ballOf 3 127, ballOf 4 7] ++ [tenth]))

/-- A team of two bowlers, at a frame and a bowler. -/
def pairOfBowlers (frame bowler : Nat) : Team :=
  { teamOf .bowling true [freshBowler, freshBowler] with frame := frame, bowler := bowler }

theorem test_meets_LiveBallsAreScored :
    (∀ t ∈ [pairOfBowlers 1 1, pairOfBowlers 1 2, pairOfBowlers 10 1],
      let s := withTeam t (withMachine readyMachine ground)
      s.bowlingTeam 0 = some (0, t) ∧ t.roster[t.bowler - 1]? = some freshBowler ∧ s.mrp.part ≠ .config ∧
      s.enabled 0 = true ∧ s.mode (pairOf t.seated) = .opened) ∧
    ((withDelivery liveDelivery playing).delivery 0).map (·.live) = some true ∧
    (playing.delivery 0 = none ∧ (1023 : Pins) = bowlingTeam.target ∧ playing.auto 0 = none ∧ playing.backup 0 = none) ∧
    (frameStep 1 [ballOf 3 127] 1023).ends = false ∧ (frameStep 1 [ballOf 10 0] 1023).ends = true ∧
    (pairOfBowlers 1 1).bowler < (pairOfBowlers 1 1).roster.length ∧
    ((pairOfBowlers 1 2).frame ≠ 10 ∧ (pairOfBowlers 9 2).frame ≠ 10) ∧ (frameStep 10 [ballOf 10 0] 1023).ends = false := by
  decide +kernel

/-- The last bowler's frame that ends the game in OPEN mode, and its frames 1 and 10 in PAIRED mode. -/
theorem test_meets_LiveBallsAreScored_ends :
    ∀ frame ∈ [1, 10], ∀ mode ∈ [PairMode.opened, .paired],
      let tenth := veteran [ballOf 3 127]
      let t := { teamOf .bowling true [if frame = 10 then tenth else freshBowler] with frame := frame }
      let s := withMode mode (withTeam t (withMachine readyMachine ground))
      let ball := if frame = 10 then ballOf 4 7 else ballOf 10 0
      let balls := if frame = 10 then [ballOf 3 127, ball] else [ball]
      s.bowlingTeam 0 = some (0, t) ∧ t.roster.length ≤ t.bowler ∧ (frameStep frame balls 127).ends = true ∧
      s.mode (pairOf 0) = mode ∧ (recordGame 0 s).team 0 ≠ none := by decide +kernel

theorem test_meets_TheGameFollowsItsBalls :
    (let strike := ballOf 10 0
     let seven := ballOf 7 7
     let three := ballOf 3 0
     let foul : Ball := { seven with pins := 0, foul := true }
     (strike.pins = 10 ∧ strike.foul = false) ∧ ¬ (seven.pins = 10 ∧ seven.foul = false) ∧ foul.foul = true ∧
     seven.after ≠ 0 ∧ three.after = 0 ∧ seven.pins + three.pins = 10 ∧ three.pins + three.pins < 10 ∧
     (List.replicate 10 [strike]).length = 10 ∧
     ((List.replicate 10 [seven, three])[(9 : Fin 10).val]?).getD [] = seven :: [three] ∧
     ((List.replicate 9 [seven, three] ++ [[strike, strike, strike]])[(9 : Fin 10).val]?).getD [] = strike :: [strike, strike] ∧
     ((List.replicate 10 ([] : List Ball))[(0 : Fin 10).val]?).getD [] = []) := by decide +kernel

theorem test_meets_ATeamIsLoaded :
    (∀ n ∈ [[(65 : Byte)], List.replicate 12 126, [32]],
      1 ≤ n.length ∧ n.length ≤ 12 ∧ ∀ x ∈ n, 32 ≤ x.toNat ∧ x.toNat ≤ 126) ∧
    (1 ≤ (6#8).toNat ∧ (6#8).toNat ≤ 6 ∧ (1#8).toNat ≤ 1) ∧ ¬ (7#8).toNat ≤ 6 ∧ ¬ (2#8).toNat ≤ 1 ∧
    (playing.team 0 ≠ none ∧ playing.team 1 = none ∧ playing.seatedTeam 0 ≠ none) ∧
    (ground.team 0 = none ∧ ground.enabled 0 = true ∧ ground.seatedTeam 0 = none) ∧ ground.enabled 1 = false := by
  decide +kernel

/-- The part with a STANDBY team and a session on a tariff. -/
def standing (t : Tariff) (x : Session) (m : LaneMachine) : State :=
  withTeam (teamOf (.standby .new) false [freshBowler]) (withSession x (withTariff t (withMachine m ground)))

theorem test_meets_AdmissionStartsOrRefusesAGame_refusals :
    (ground.session 0).state = .closed ∧
    (let s := standing gameTariff (sessionOf .running none) { readyMachine with holds := { HoldSet.empty with logfull := true } }
     (s.session 0).state ≠ .closed ∧ (s.holds 0).logfull = true) ∧
    (∀ n ∈ [0, 1],
      let s := standing gameTariff (sessionOf .running (some n)) readyMachine
      s.team 0 = some (teamOf (.standby .new) false [freshBowler]) ∧ s.sessionTariff 0 = some gameTariff ∧
      (s.session 0).state ≠ .closed ∧ (s.holds 0).logfull = false ∧
      ((s.session 0).credit.any (fun c => decide (c < (s.session 0).reserved + 1)) = decide (n = 0))) ∧
    (∀ n ∈ [5, 6],
      let s := standing (timeTariff .onOpen .none) (sessionOf .running (some n)) readyMachine
      s.sessionTariff 0 = some (timeTariff .onOpen .none) ∧ (s.session 0).state ≠ .expired ∧
      ((s.session 0).credit.any (fun c => decide (c ≤ 5)) = decide (n = 5))) ∧
    ((standing (timeTariff .onOpen .none) (sessionOf .expired (some 0)) readyMachine).session 0).state = .expired := by
  decide +kernel

theorem test_meets_AdmissionStartsOrRefusesAGame_starts :
    (timeTariff .onGameStart .none).timed = some ⟨.onGameStart, .none, 5, 30⟩ ∧ gameTariff.timed = none ∧
    (let s := standing (timeTariff .onGameStart .none) (sessionOf .armed none) readyMachine
     (s.session 0).state = .armed ∧ (s.machine 0).deckValid = true ∧ (s.machine 0).deck = 1023) ∧
    (∀ m ∈ [{ readyMachine with deckValid := false }, { readyMachine with deck := 7 }],
      let s := standing gameTariff (sessionOf .running none) m
      s.seatedSlot 0 = some 0 ∧ (s.machine 0).state = .ready ∧ ((s.machine 0).deckValid = false ∨ (s.machine 0).deck ≠ 1023)) ∧
    ((standing gameTariff (sessionOf .running none) LaneMachine.reset).machine 0).state ≠ .ready := by decide +kernel

theorem test_meets_GamesAreStartedByDeskAndConsole :
    (∀ st ∈ [TeamState.bowling, .waitingCross, .standby .new],
      let s := withTeam (teamOf st true [freshBowler]) ground
      s.team 0 = some (teamOf st true [freshBowler]) ∧ s.seatedTeam 0 = some (0, teamOf st true [freshBowler]) ∧
      s.mrp.part ≠ .config ∧ s.enabled 0 = true) ∧
    ground.team 0 = none ∧ ground.seatedTeam 0 = none := by decide +kernel

theorem test_meets_ATeamIsUnloaded :
    playing.team 0 = some bowlingTeam ∧ (∀ j : Slot, j ≠ 0 → playing.team j = none) ∧ ground.team 0 = none ∧
    playing.dli.notices.Nodup := by decide +kernel

/-- A team unloaded beside one that waits on the partner lane, and beside one that does not. -/
theorem test_meets_ATeamIsUnloaded_cross :
    ∀ st ∈ [TeamState.waitingCross, .bowling],
      let s := withMode .paired (withTeam bowlingTeam ground)
      let t : State := { s with sce := { s.sce with
        teams := s.sce.teams.put 1 (some { teamOf st true [freshBowler] with home := 1, seated := 1 }) } }
      t.team 0 = some bowlingTeam ∧ t.mode (pairOf 0) = .paired ∧ partner 0 = 1 ∧
      (t.seatedTeam 1).map (·.2.state) = some st := by decide +kernel

/-- The part with a waiting team on lane 1 and perhaps a team on lane 2. -/
def waiting (other : Option Team) : State :=
  let s := withMode .paired (withTeam (teamOf .waitingCross true [freshBowler]) ground)
  { s with sce := { s.sce with teams := s.sce.teams.put 1 (other.map fun t => { t with home := 1, seated := 1 }) } }

/-- A team at home and seated on lane 2. -/
def second (st : TeamState) : Team := { teamOf st true [freshBowler] with home := 1, seated := 1 }

/-- A GAME charge that enters the log, one that is owed by a full log, and one combined into an owed record. -/
theorem test_meets_GamesEndAndAreCharged :
    (let s := standing (timeTariff .onOpen .none) (sessionOf .running none) readyMachine
     s.team 0 = some (teamOf (.standby .new) false [freshBowler]) ∧ s.terms 0 = some ⟨.onOpen, .none, 5, 30⟩) ∧
    (let s := standing gameTariff (sessionOf .running none) readyMachine
     s.sessionTariff 0 = some gameTariff ∧ gameTariff.timed = none) ∧
    (teamOf (.standby .new) false []).autoContinue = false ∧
    ({ teamOf (.standby .new) false [] with autoContinue := true } : Team).autoContinue = true ∧
    (ground.blu.log.length < 256 ∧ (ground.session 0).accrued.toNat + (500#48).toNat < 2 ^ 48) ∧
    (let c : Charge := ⟨7, 0, 0, .game 1 1 1 500 500⟩
     let full (owed : Option Charge) : State :=
       let s := withSession { sessionOf .running none with owed := owed } (withTariff gameTariff ground)
       { s with blu := { s.blu with log := List.replicate 256 ⟨0, c⟩ } }
     256 ≤ (full none).blu.log.length ∧ ((full none).session 0).owed = none ∧ ((full (some c)).session 0).owed = some c ∧
     c.body.amount.toNat + c.body.amount.toNat < 2 ^ 48) := by decide +kernel

theorem test_meets_WaitingTeamsCross :
    ((waiting none).team 0 = some (teamOf .waitingCross true [freshBowler]) ∧ (waiting none).seatedTeam (partner 0) = none ∧
      (∀ j : Slot, j ≠ 0 → (waiting none).team j = none)) ∧
    (∀ st ∈ [TeamState.bowling, .standby .new, .waitingCross],
      (waiting (some (second st))).seatedTeam 1 = some (1, second st) ∧ partner 0 = 1 ∧
      (∀ j : Slot, j ≠ 0 → j ≠ 1 → (waiting (some (second st))).team j = none)) ∧
    (∀ m ∈ [readyMachine, { readyMachine with deckValid := false }, LaneMachine.reset],
      let s := withMachine m (waiting none)
      s.seatedSlot 0 = some 0 ∧ s.machine 0 = m) ∧
    (teamOf .waitingCross true []).inProgress = true ∧ (teamOf .waitingCross false []).inProgress = false := by decide +kernel

theorem test_meets_ThePairModeIsSet :
    (∀ mode ∈ [1#8, 2#8], mode = 1 ∨ mode = 2) ∧ (0#8 ≠ 1 ∧ 0#8 ≠ 2) ∧ (3#8 ≠ 1 ∧ 3#8 ≠ 2) ∧
    (let s := withTariff gameTariff (withSession (sessionOf .running none)
       { ground with blu := { ground.blu with sessions := ground.blu.sessions.put 1 (sessionOf .running none) } })
     ∀ l : Lane, l = oddLane 0 ∨ l = evenLane 0 → (s.session l).state = .running ∧ s.terms l = none ∧ s.seatedTeam l = none) ∧
    (ground.session (oddLane 0)).state ≠ .running ∧ ground.mode 0 = .opened ∧
    ((waiting none).mode 0 = .paired ∧ (waiting none).seatedTeam (oddLane 0) = some (0, teamOf .waitingCross true [freshBowler]) ∧
      (waiting none).seatedTeam (evenLane 0) = none) ∧
    ((waiting (some (second .waitingCross))).mode 0 = .paired ∧
      (waiting (some (second .waitingCross))).seatedTeam (evenLane 0) = some (1, second .waitingCross)) := by decide +kernel

/-- The part with a correction waiting on lane 1. -/
def withCorrection (s : State) : State :=
  { s with
    sce := { s.sce with corrections := s.sce.corrections.put 0 (some ⟨0, 1, 1, 2⟩) }
    dli := { s.dli with notices := [.ofLane .correction 0] } }

theorem test_meets_CorrectionsAreTakenAndClosed :
    ground.seatedTeam 0 = none ∧ ground.enabled 1 = false ∧ playing.seatedTeam 0 = some (0, bowlingTeam) ∧
    bowlingTeam.roster.length < 2 ∧ 1 ≤ bowlingTeam.roster.length ∧ playing.correction 0 = none ∧
    (withCorrection playing).correction 0 = some ⟨0, 1, 1, 2⟩ := by decide +kernel

/-- The part with a team whose one bowler has bowled. -/
def reservable (st : TeamState) (b : Bowler) (r : Option Reservation) : State :=
  withTeam { teamOf st true [b] with reservation := r } ground

theorem test_meets_ACompleteFrameIsReserved :
    (1 ≤ (1#8).toNat ∧ (6#8).toNat ≤ 6 ∧ (10#8).toNat ≤ 10) ∧ ¬ (7#8).toNat ≤ 6 ∧ ¬ (11#8).toNat ≤ 10 ∧
    ground.team 0 = none ∧
    (let b := veteran [ballOf 3 127, ballOf 4 7]
     let s := reservable .bowling b none
     s.team 0 = some (teamOf .bowling true [b]) ∧ (teamOf .bowling true [b]).roster.length < (2#8).toNat ∧
     (teamOf .bowling true [b]).roster[(1#8).toNat - 1]? = some b ∧
     (b.frame 1).balls = [ballOf 3 127, ballOf 4 7] ∧ (b.frame 2).balls = [ballOf 10 0] ∧
     (b.frame 10).balls = [ballOf 3 127, ballOf 4 7]) ∧
    ((veteran [ballOf 10 0, ballOf 10 0, ballOf 10 0]).frame 10).balls = [ballOf 10 0, ballOf 10 0, ballOf 10 0] ∧
    ((veteran [ballOf 10 0]).frame 10).balls = [ballOf 10 0] ∧
    (freshBowler.frame 1).balls = [] := by decide +kernel

theorem test_meets_AReservedFrameIsAmended :
    (1 ≤ (3#8).toNat ∧ (3#8).toNat ≤ 3 ∧ ∀ w ∈ [(⟨10, 0⟩ : WireBall), ⟨0, 1⟩], w.foul.toNat ≤ 1) ∧ ¬ (4#8).toNat ≤ 3 ∧
    ¬ (⟨0, 2⟩ : WireBall).foul.toNat ≤ 1 ∧
    (let b := veteran [ballOf 3 127, ballOf 4 7]
     let s := reservable .bowling b (some ⟨1, 1⟩)
     s.team 0 = some { teamOf .bowling true [b] with reservation := some ⟨(1#8).toNat, (1#8).toNat⟩ } ∧
     (s.team 0).bind (·.reservation) ≠ some ⟨(1#8).toNat, (2#8).toNat⟩ ∧
     (b.frame 1).balls.length = 2 ∧ [(⟨5, 0⟩ : WireBall), ⟨5, 0⟩].length = (2#8).toNat ∧
     (∀ w ∈ [(⟨5, 0⟩ : WireBall), ⟨5, 0⟩], w.pins.toNat ≤ 10 ∧ (w.foul = 1 → w.pins = 0)) ∧
     (5#8).toNat + (5#8).toNat ≤ 10) ∧
    [(⟨6, 0⟩ : WireBall), ⟨5, 0⟩].length = (2#8).toNat ∧ ¬ (6#8).toNat + (5#8).toNat ≤ 10 := by decide +kernel

/-- Pair 1's record with balls in the return and a rack. -/
def returning (balls rack : Nat) : PairRecord :=
  { PairRecord.reset with
    transit := List.replicate balls ⟨0, 9⟩, rack := rack, lift := decide (rack < 12)
    timer := if 0 < balls ∧ rack < 12 then some 20 else none }

theorem test_meets_BallsPassArriveAndAreTaken :
    (ground.mrp.part ≠ .config ∧ ground.enabled 0 = true ∧ ground.pairEnabled 0 = true) ∧
    (∀ n ∈ [0, 7], ((withPair (returning n 0) ground).pair 0).transit.length < 8) ∧
    8 ≤ ((withPair (returning 8 0) ground).pair 0).transit.length ∧
    ((withPair (returning 1 11) ground).pair 0).rack < 12 ∧ 12 ≤ ((withPair (returning 1 12) ground).pair 0).rack ∧
    0 < ((withPair (returning 0 1) ground).pair 0).rack ∧ (ground.pair 0).rack = 0 ∧ (ground.pair 0).transit = [] ∧
    (ground.pair 0).causes = ⟨none, none, none, none⟩ ∧
    ((withPair { returning 8 0 with causes := ⟨some false, none, none, none⟩ } ground).pair 0).causes
      ≠ ⟨none, none, none, none⟩ ∧
    (ground.enabled 1 = false ∧ ground.pairEnabled 1 = false) ∧
    ((12 : Int) - 9 - 0 > 2 ∧ (12 : Int) - 9 - 1 ≤ 2) := by decide +kernel

theorem test_meets_PairCausesAreLatchedAndAcknowledged :
    (ground.mrp.part ≠ .config ∧ ground.pairEnabled 0 = true ∧ (ground.pair 0).causes.jam = none ∧ (ground.pair 0).timer = none) ∧
    ((withPair (returning 1 0) ground).pair 0).timer ≠ none ∧ ground.pairEnabled 1 = false ∧
    (∀ ended ∈ [true, false],
      let s := withPair { PairRecord.reset with causes := ⟨none, some ended, none, none⟩ } ground
      (s.pair 0).causes.jam = some ended ∧ (s.pair 0).causes ≠ ⟨none, none, none, none⟩) ∧
    (pairNumbered (1#8).toNat = some 0 ∧ (15#8).toNat ≤ 15 ∧ (15#8) ≠ 0 ∧ (2#8).getLsbD 1 = true) ∧ 15 < (16#8).toNat ∧
    (pairNumbered (0#8).toNat = none ∧ pairNumbered (17#8).toNat = none ∧ ground.responsesQueued < 8 ∧
      State.reset.mrp.part = .config) := by decide +kernel

theorem test_meets_TheDeskDiscardsBallsAndSetsRacks :
    (ground.pair 0).transit = [] ∧ ((withPair (returning 8 0) ground).pair 0).transit = ⟨0, 9⟩ :: List.replicate 7 ⟨0, 9⟩ ∧
    (ground.pair 0).capacity < (13#8).toNat ∧ (12#8).toNat ≤ (ground.pair 0).capacity ∧
    (0#8).toNat ≤ (ground.pair 0).capacity := by decide +kernel

/-- The part whose lane 1 has a session on a PER_TIME tariff. -/
def timing (x : Session) (t : Trigger) (g : Gate) : State := withSession x (withTariff (timeTariff t g) ground)

/-- A RUNNING session with a segment of one minute in the first band. -/
def metered (seconds : Nat) (credit : Option Nat) : Session :=
  { sessionOf .running credit with seconds := seconds, segMinutes := 1, segBand := some 0, segAmount := 10 }

theorem test_meets_SessionsStartAndAreMetered :
    (let s := timing (sessionOf .armed none) .onFirstBall .none
     s.mrp.part ≠ .config ∧ s.enabled 0 = true ∧ (s.terms 0).map (·.trigger) = some .onFirstBall ∧ (s.session 0).state = .armed) ∧
    (ground.session 0).state ≠ .armed ∧ ground.terms 0 = none ∧
    (∀ g ∈ [Gate.none, .machine, .machineAndReturn],
      (timing (sessionOf .running none) .onOpen g).terms 0 = some ⟨.onOpen, g, 5, 30⟩) ∧
    (∀ x ∈ [metered 0 none, metered 58 (some 9), metered 59 (some 7), metered 59 (some 6), metered 59 none, metered 59 (some 1)],
      let s := timing x .onOpen .none
      s.sessionTariff 0 = some (timeTariff .onOpen .none) ∧ (s.session 0).state = .running ∧
      (s.session 0).segBand = some ((timeTariff .onOpen .none).bandAt (s.mrp.clock + 1)) ∧
      (s.session 0).segMinutes + 1 ≠ 9999 ∧ (s.session 0).credit ≠ some 0 ∧
      (s.session 0).accrued.toNat + (s.session 0).segAmount + 10 < 2 ^ 48 ∧ s.blu.log.length + 64 ≤ 256) ∧
    58 + 1 < 60 ∧ 60 ≤ 59 + 1 ∧
    (let x := { metered 0 none with state := .suspended, segBand := some 1 }
     let s := timing x .onOpen .none
     (s.session 0).segBand ≠ some ((timeTariff .onOpen .none).bandAt (s.mrp.clock + 1)) ∧ (s.session 0).segMinutes ≠ 0 ∧
     (s.session 0).state ≠ .running) := by decide +kernel

/-- One lane's second: a RUNNING session whose segment another band has overtaken, one at its 9999th minute, one with credit to warn at,
past it and to expire at, and one whose log is full with a record owed. -/
theorem test_meets_SessionsStartAndAreMetered_second :
    (∀ x ∈ [{ metered 59 none with segBand := some 1 }, { metered 59 none with segMinutes := 9998 }, metered 59 (some 6),
        metered 59 (some 7), metered 59 (some 2), { metered 59 (some 6) with warned := true }, metered 59 (some 1), metered 0 none,
        { metered 59 none with owed := some ⟨7, 0, 0, .time 0 1 10 10⟩ }, { metered 59 none with state := .suspended }],
      let s := timing x .onOpen .none
      let full : State := { s with blu := { s.blu with log := List.replicate 256 ⟨0, ⟨7, 0, 0, .close 0 0 0 false⟩⟩ } }
      full.sessionTariff 0 = some (timeTariff .onOpen .none) ∧ (timeTariff .onOpen .none).timed = some ⟨.onOpen, .none, 5, 30⟩ ∧
      full.session 0 = x ∧ x.state ≠ .closed ∧ (timeTariff .onOpen .none).bandAt full.mrp.clock = 0) ∧
    ground.terms 0 = none := by decide +kernel

theorem test_meets_TariffsAreLoadedAndSessionsOpened_tariff :
    ([(⟨0, 5⟩ : WireBand), ⟨1439, 6⟩].length = (2#8).toNat ∧ (4#8).toNat ≤ 4 ∧ ¬ (5#8).toNat ≤ 4 ∧
      [(⟨0, 5⟩ : WireBand), ⟨1439, 6⟩].map (·.start.toNat) = [0, 1439] ∧ [0, 1439].Pairwise (· < ·) ∧
      (∀ n ∈ [0, 1439], n ≤ 1439) ∧ (99#8).toNat ≤ 99 ∧ ¬ (100#8).toNat ≤ 99 ∧ (60#8).toNat ≤ 60 ∧ ¬ (61#8).toNat ≤ 60) ∧
    ((timing (sessionOf .running none) .onOpen .none).session 0).state ≠ .closed ∧
    (∀ l : Lane, (ground.session l).state = .closed) := by decide +kernel

theorem test_meets_TariffsAreLoadedAndSessionsOpened_session :
    (let s := withTariff (timeTariff .onOpen .machine) ground
     s.enabled 0 = true ∧ (s.session 0).state = .closed ∧ s.tariff 0 = some (timeTariff .onOpen .machine) ∧
     s.mrp.clockSet = true) ∧
    (ground.tariff 0 = none ∧ ground.enabled 1 = false ∧ State.reset.mrp.clockSet = false) ∧
    ((withTariff gameTariff ground).tariff 0 = some gameTariff ∧ ¬ 999 < (999#16).toNat ∧ 999 < (1000#16).toNat ∧
      ¬ 9999 < (9999#16).toNat ∧ 9999 < (10000#16).toNat ∧ (0#16).toNat = 0) := by decide +kernel

theorem test_meets_SessionsAreToppedUpAndClosed_topup :
    (1 ≤ (1#16).toNat ∧ (9999#16).toNat ≤ 9999 ∧ 9999 < (10000#16).toNat ∧ (0#16).toNat = 0) ∧
    (ground.session 0).state = .closed ∧
    (∀ st ∈ [SessionState.running, .expired, .armed, .suspended], ∀ credit ∈ [none, some 0, some 9999],
      let s := timing (sessionOf st credit) .onOpen .none
      (s.session 0).state ≠ .closed ∧ (s.session 0).credit = credit) ∧ ground.dli.notices.Nodup := by decide +kernel

theorem test_meets_SessionsAreToppedUpAndClosed_close :
    (∀ x ∈ [metered 29 none, metered 30 none, { metered 0 none with state := .expired }, sessionOf .running (some 9)],
      let s := timing x .onOpen .none
      s.sessionTariff 0 = some (timeTariff .onOpen .none) ∧ s.mrp.part ≠ .config ∧ (s.session 0).state ≠ .closed ∧
      s.homesTeam 0 = false ∧ (s.session 0).owed = none ∧ s.blu.log.length + 2 ≤ 256 ∧
      (s.session 0).accrued.toNat + ((s.session 0).segAmount + 10) < 2 ^ 48 ∧
      (0 < (s.session 0).segMinutes → (s.session 0).segBand ≠ none)) ∧
    (withTeam bowlingTeam (timing (metered 0 none) .onOpen .none)).homesTeam 0 = true ∧
    ((timing { metered 0 none with owed := some ⟨7, 0, 0, .close 0 0 0 false⟩ } .onOpen .none).session 0).owed ≠ none := by
  decide +kernel

/-- The part with three records in the log, two of them fetched, and perhaps one owed. -/
def logged (owed : Option Charge) : State :=
  let c : Charge := ⟨7, 0, 0, .close 0 0 0 false⟩
  let s := withSession { sessionOf .suspended none with owed := owed, causeLogFull := owed.isSome }
    (withMachine { readyMachine with holds := { HoldSet.empty with logfull := owed.isSome } } ground)
  { s with blu := { s.blu with log := [⟨0xFFFF, c⟩, ⟨0, c⟩, ⟨1, c⟩], nextSeq := 2, fetchPos := 1 } }

theorem test_meets_TheChargeLogIsFetchedSettledAndRewound :
    (0#8 = 0 ∧ 8 < (9#8).toNat ∧ 1 ≤ (1#8).toNat ∧ (8#8).toNat ≤ 8) ∧
    (let s := logged (some ⟨8, 0, 0, .close 1 0 0 false⟩)
     let oldest := (s.blu.log.head?.map (·.seq)).getD s.blu.nextSeq
     let offset := (s.blu.fetchPos - oldest).toNat
     oldest = 0xFFFF ∧ offset = 2 ∧ ((0#16) - oldest).toNat < s.blu.log.length ∧ ((0#16) - oldest).toNat < offset ∧
     offset ≤ ((1#16) - oldest).toNat ∧ s.blu.log.length ≤ ((2#16) - oldest).toNat ∧
     (s.session 0).owed ≠ none ∧ (s.session 1).owed = none ∧ (s.holds 0).logfull = true) ∧
    State.reset.blu.log.length ≤ ((0#16) - 0#16).toNat := by decide +kernel

/-- A full log, its oldest record fetched, with one owed record on each of lanes 1 and 2. -/
def brimming : State :=
  let c : Charge := ⟨8, 0, 0, .close 1 0 0 false⟩
  let s := logged (some c)
  { s with
    psv := s.psv.put 1 (s.machine 0)
    blu := { s.blu with
      sessions := s.blu.sessions.put 1 { s.session 0 with owed := some { c with lane := 1 } }
      log := (List.range 256).map fun n => ⟨BitVec.ofNat 16 n, ⟨7, 0, 0, .close 0 0 0 false⟩⟩
      nextSeq := 256, fetchPos := 1 } }

/-- Its oldest record's settlement frees one place for two owed records: lane 1 is among those written and lane 2 is not. -/
theorem test_meets_TheChargeLogIsFetchedSettledAndRewound_beyond :
    let s := brimming
    let lanes := (allLanes.filter fun l => (s.session l).owed.isSome).take (256 - (s.blu.log.drop 1).length)
    (s.blu.log.head?.map (·.seq)).getD s.blu.nextSeq = 0 ∧ (0#16).toNat < s.blu.log.length ∧
    (0#16).toNat < (s.blu.fetchPos - 0).toNat ∧ 0 ∈ lanes ∧ 1 ∉ lanes ∧ (s.session 1).owed ≠ none ∧
    (s.holds 0).logfull = true := by decide +kernel

/-- With the high level at three records the log above is at it, and a settlement of two records leaves it. -/
theorem test_meets_TheChargeLogIsFetchedSettledAndRewound_level :
    (let s := logged none
     let t : State := { s with mrp := { s.mrp with params := { s.mrp.params with logHigh := 3 } } }
     t.mrp.params.logHigh ≤ t.blu.log.length ∧ (t.blu.log.drop 2).length < t.mrp.params.logHigh) := by
  decide +kernel

theorem test_meets_TheMapsAreLoaded :
    State.reset.mrp.part = .config ∧ ground.mrp.part ≠ .config ∧ ((1#8).toNat ≤ 1 ∧ 1 < (2#8).toNat) ∧
    ((126#8).toNat < 127 ∧ 127 ≤ (127#8).toNat) ∧
    (4 ≤ (4#8).toNat ∧ (24#8).toNat ≤ 24 ∧ (3#8).toNat < (4#8).toNat ∧ ¬ (25#8).toNat ≤ 24 ∧ ¬ (4#8).toNat < (4#8).toNat) ∧
    (roleOf (0#8).toNat = some .ps ∧ roleOf (3#8).toNat = some .cn ∧ roleOf (4#8).toNat = none) ∧
    ((31#8).toNat ≤ 31 ∧ 31 < (32#8).toNat) ∧
    (dispositionOf (2#8).toNat ≠ none ∧ dispositionOf (0#8).toNat ≠ dispositionOf (3#8).toNat ∧ dispositionOf (9#8).toNat = none) ∧
    (actedOn .ps (4#8).toNat = true ∧ actedOn .ps (5#8).toNat = false) := by decide +kernel

theorem test_meets_ParametersAndTheClockAreSet_parameters :
    (1 ≤ (1#8).toNat ∧ (16#8).toNat ≤ 16 ∧ ¬ (17#8).toNat ≤ 16) ∧ (¬ (16#8).toNat ≤ 15 ∧ ¬ 4 ≤ (3#8).toNat) ∧
    ((120#8).toNat ≤ 120 ∧ ¬ (121#8).toNat ≤ 120) ∧ ((256#16).toNat ≤ 256 ∧ ¬ (257#16).toNat ≤ 256) ∧
    ([(3#8).toNat, (1#8).toNat, (2#8).toNat].Nodup ∧ ∀ n ∈ [(3#8).toNat, (1#8).toNat, (2#8).toNat], 1 ≤ n ∧ n ≤ 3) ∧
    ¬ [(1#8).toNat, (1#8).toNat, (2#8).toNat].Nodup ∧
    (let s : State := { withMachine (movingMachine .cycling) ground with psv :=
       ((withMachine (movingMachine .cycling) ground).psv.put 1 (movingMachine .cycling)) }
     (1#8).toNat < s.slotsInUse ∧ s.slotsInUse ≤ (2#8).toNat) := by decide +kernel

theorem test_meets_ParametersAndTheClockAreSet_clock :
    (86399#32).toNat ≤ 86399 ∧ 86399 < (86400#32).toNat ∧ ground.terms 0 = none ∧
    (let s := timing (metered 0 none) .onOpen .none
     s.sessionTariff 0 = some (timeTariff .onOpen .none) ∧ (timeTariff .onOpen .none).timed ≠ none ∧
     (s.session 0).state ≠ .closed ∧ 0 < (s.session 0).segMinutes ∧
     (s.session 0).segBand = some ((timeTariff .onOpen .none).bandAt (35999#32).toNat) ∧
     (s.session 0).segBand ≠ some ((timeTariff .onOpen .none).bandAt (36000#32).toNat) ∧ s.blu.log.length + 32 ≤ 256 ∧
     (s.session 0).accrued.toNat + (s.session 0).segAmount < 2 ^ 48) := by decide +kernel

/-- A part in CONFIG that may be committed, but for one entry of the Lane Map. -/
def mapped (l : LaneEntry) (p : PairEntry) : State :=
  inPart .config { ground with frr := { ground.frr with lanes := ground.frr.lanes.put 0 l, pairs := ground.frr.pairs.put 0 p } }

theorem test_meets_TheConfigurationIsCommitted_violations :
    ((mapped ⟨true, some 1, none, some 3⟩ ⟨some 4, 12, 2, 0⟩).enabled 0 = true ∧
      ((mapped ⟨true, some 1, none, some 3⟩ ⟨some 4, 12, 2, 0⟩).laneEntry 0).fl = none) ∧
    ((mapped ⟨true, some 1, some 2, some 3⟩ ⟨none, 12, 2, 0⟩).pairEnabled 0 = true ∧
      ((mapped ⟨true, some 1, some 2, some 3⟩ ⟨none, 12, 2, 0⟩).pairEntry 0).br = none ∧
      ∀ l : Lane, l ≠ 0 → (mapped ⟨true, some 1, some 2, some 3⟩ ⟨none, 12, 2, 0⟩).enabled l = false) ∧
    (((mapped ⟨true, some 1, some 2, some 3⟩ ⟨some 4, 12, 2, 13⟩).pairEntry 0).capacity <
      ((mapped ⟨true, some 1, some 2, some 3⟩ ⟨some 4, 12, 2, 13⟩).pairEntry 0).initialRack ∧
      (mapped ⟨true, some 1, some 2, some 3⟩ ⟨some 4, 12, 2, 13⟩).mrp.part = .config) ∧
    (let s := mapped ⟨true, some 1, some 2, some 1⟩ ⟨some 4, 12, 2, 0⟩
     let reading : List (Byte × Nat) :=
       (allLanes.flatMap fun l => if s.enabled l then
         ([(s.laneEntry l).ps, (s.laneEntry l).fl, (s.laneEntry l).cn].filterMap id).map fun a => (a, numberOf l) else []) ++
       (allPairs.flatMap fun p => if s.pairEnabled p then
         ((s.pairEntry p).br.toList).map fun a => (a, numberOf p) else [])
     reading = [(1, 1), (2, 1), (1, 1), (4, 1)] ∧ reading[(2 : Fin 112).val]? = some (1, 1) ∧
     ((reading.map (·.1)).take 2).Nodup ∧ (1#8) ∈ (reading.map (·.1)).take 2) := by decide +kernel

theorem test_meets_TheConfigurationIsCommitted_commits :
    (let s := inPart .config ground
     s.mrp.part = .config ∧ (∀ l : Lane, l ≠ 0 → s.enabled l = false) ∧
     s.laneEntry 0 = ⟨true, some 1, some 2, some 3⟩ ∧ (s.pairEntry 0).br = some 4 ∧
     (∀ p : Pair, (s.pairEntry p).initialRack ≤ (s.pairEntry p).capacity) ∧ [(1#8), 2, 3, 4].Nodup ∧
     ∀ l : Lane, (s.machine l).state = .off) ∧
    ground.mrp.part ≠ .config := by decide +kernel

theorem test_meets_ThePartIsReconfigured :
    (ground.mrp.part = .run ∧ (∀ l : Lane, (ground.session l).state = .closed ∧ (ground.machine l).state ≠ .cycling ∧
      (ground.machine l).state ≠ .stopping) ∧ ∀ k : Slot, ground.team k = none) ∧
    playing.team 0 ≠ none ∧ ground.dli.notices.Nodup := by decide +kernel

theorem test_meets_LanesAreEnabledDisabledAndReset :
    (let s : State := { ground with frr := { ground.frr with lanes := ground.frr.lanes.put 1 ⟨false, some 5, some 6, some 7⟩ } }
     s.mrp.part = .run ∧ s.enabled 1 = false ∧ s.pairEnabled (pairOf 1) = true ∧
     s.laneEntry 1 = ⟨false, some 5, some 6, some 7⟩ ∧ [(5#8), 6, 7].Nodup ∧ ∀ a ∈ [(5#8), 6, 7], resolveUp a s = none) ∧
    (let s : State := { ground with frr := { ground.frr with
       lanes := ground.frr.lanes.put 2 ⟨false, some 5, some 6, some 7⟩, pairs := ground.frr.pairs.put 1 ⟨some 8, 12, 2, 0⟩ } }
     s.enabled 2 = false ∧ s.pairEnabled (pairOf 2) = false ∧ (s.pairEntry (pairOf 2)).br = some 8 ∧ resolveUp 8 s = none) ∧
    (ground.laneEntry 1).ps = none ∧ ((timing (sessionOf .running none) .onOpen .none).session 0).state ≠ .closed ∧
    (∃ k, (playing.team k).any (fun x => x.home == 0 || x.seated == 0) = true) ∧
    (∀ m ∈ [LaneMachine.reset, readyMachine, faultMachine false false, movingMachine .cycling, { readyMachine with state := .service }],
      let s := withMachine m ground
      s.enabled 0 = true ∧ (s.session 0).state = .closed ∧ (∀ k, s.team k = none) ∧ s.machine 0 = m) ∧
    (∀ t ∈ [bowlingTeam, teamOf .waitingCross false [freshBowler], teamOf (.standby .new) false [freshBowler]],
      (withTeam t ground).seatedTeam 0 = some (0, t) ∧ (withTeam t ground).mode (pairOf 0) = .opened ∧
      (withTeam t ground).seatedTeam (partner 0) = none) ∧
    (∀ st ∈ [TeamState.waitingCross, .bowling],
      let s := withMode .paired { withTeam bowlingTeam ground with sce := { (withTeam bowlingTeam ground).sce with
        teams := (withTeam bowlingTeam ground).sce.teams.put 1 (some (second st)) } }
      s.mode (pairOf 0) = .paired ∧ s.seatedTeam (partner 0) = some (1, second st)) := by decide +kernel

theorem test_meets_HaltsBeginAndComplete :
    (ground.mrp.part = .run ∧ ground.mrp.halt.observed = false ∧ ∀ l : Lane, (ground.machine l).state ≠ .cycling) ∧
    (let s := withMachine (movingMachine .cycling) ground
     (s.machine 0).inFlight = some ⟨5, .fullRack, .auto, false⟩ ∧ (s.machine 0).state = .cycling ∧ s.slotsInUse = 1 ∧
     (∀ l : Lane, (s.machine l).state = .cycling → (s.machine l).inFlight ≠ none) ∧
     ({ s with lli := { s.lli with stopMarks := s.lli.stopMarks.put 0 (some 3) } } : State).lli.stopMarks.at 0 = some 3) ∧
    ((inPart .halting ground).mrp.part ≠ .config ∧ (inPart .halting ground).mrp.part ≠ .run ∧ (inPart .halting ground).slotsInUse = 0 ∧
      (inPart .halting ground).mrp.halt.resumeRequested = false) ∧
    (∀ resume ∈ [true, false], ∀ seen ∈ [true, false],
      let s := inPart .halting { ground with mrp := { ground.mrp with halt := ⟨seen, seen, none, resume, false⟩ } }
      s.mrp.part = .halting ∧ s.slotsInUse = 0 ∧ s.mrp.halt.observed = seen ∧ s.mrp.halt.resumeRequested = resume) := by
  decide +kernel

theorem test_meets_ThePartReturnsToRun :
    (∀ others ∈ [true, false],
      let s := inPart .halted { ground with mrp := { ground.mrp with halt := ⟨true, true, some .desk, false, others⟩ } }
      s.mrp.part = .halted ∧ s.mrp.halt.others = others ∧ s.mrp.halt.drive = true) ∧
    (let s := inPart .halted { ground with mrp := { ground.mrp with halt := ⟨true, false, none, true, true⟩ } }
     s.mrp.part = .halted ∧ s.mrp.halt.drive = false ∧ s.mrp.halt.resumeRequested = true) ∧
    ground.mrp.part ≠ .halted := by decide +kernel

theorem test_meets_ReadsChangeNothing :
    ground.terms 0 = none ∧ (timing (metered 0 none) .onOpen .none).terms 0 ≠ none ∧
    ((timing (metered 0 none) .onOpen .none).session 0).segAmount < 2 ^ 48 ∧
    (let s := timing { metered 0 none with accrued := BitVec.allOnes 48 } .onOpen .none
     2 ^ 48 ≤ (s.session 0).accrued.toNat + (s.session 0).segAmount ∧ (s.session 0).segAmount < 2 ^ 48) ∧
    ground.team 0 = none ∧ playing.team 0 = some bowlingTeam ∧ bowlingTeam.roster.length < (2#8).toNat ∧ (6#8).toNat ≤ 6 ∧
    6 < (7#8).toNat ∧ bowlingTeam.roster[(1#8).toNat - 1]? = some freshBowler := by decide +kernel

theorem test_meets_RequestsReadBackFromTheirPayload :
    (Instr.status 9).wellFormed = true ∧ requestPayload (.status 9) = some [0, 9, 1] ∧
    (Instr.teamLoad 9 1 1 0 1 [[65]]).wellFormed = true ∧
    requestPayload (.teamLoad 9 1 1 0 1 [[65]]) = some [0, 9, 41, 1, 1, 0, 1, 1, 65] ∧
    (Instr.chargeRewind 0xFFFF).wellFormed = true ∧ requestPayload (.chargeRewind 0xFFFF) = some [255, 255, 74] := by
  decide +kernel

/-- The ground state takes a step: it idles. -/
theorem test_meets_the_invariants_step : step ground = .next ground := by rfl

theorem test_meets_BoundsAndRangesAreKept :
    QueuesBounded ground ∧ NoticesDistinct ground ∧ BatchBounded ground ∧ ClockInRange ground ∧ ParamsInRange ground ∧
    HaltConsistent ground :=
  ⟨⟨by decide +kernel, by decide +kernel, by decide +kernel, by decide +kernel⟩, by unfold NoticesDistinct; decide +kernel,
   by unfold BatchBounded; decide +kernel, by unfold ClockInRange; decide +kernel,
   ⟨by decide +kernel, by decide +kernel, by decide +kernel, by decide +kernel, by decide +kernel, by decide +kernel⟩,
   ⟨by decide +kernel, by decide +kernel⟩⟩

theorem test_meets_MachinesAndHoldsStayConsistent :
    MachinesConsistent ground ∧ SlotsWithinBudget ground ∧ DisabledOff ground ∧ HoldsFollow ground :=
  ⟨fun l => ⟨by revert l; decide +kernel, by revert l; decide +kernel, by revert l; decide +kernel, by revert l; decide +kernel⟩,
   by unfold SlotsWithinBudget; decide +kernel, ⟨by decide +kernel, by decide +kernel⟩,
   ⟨by decide +kernel, by decide +kernel, by decide +kernel⟩⟩

/-- No slot of the ground state holds a team. -/
theorem ground_no_team (k : Slot) (t : Team) : ground.team k ≠ some t := by
  have none : ∀ k : Slot, ground.team k = none := by decide +kernel
  simp [none k]

theorem test_meets_PairsAndSeatingStayConsistent :
    PairsConsistent ground ∧ SeatingDistinct ground ∧ SeatedAtHomePair ground :=
  ⟨fun p => ⟨by revert p; decide +kernel, by revert p; decide +kernel, by revert p; decide +kernel, by revert p; decide +kernel,
     by revert p; decide +kernel, by revert p; decide +kernel, by revert p; decide +kernel, by revert p; decide +kernel⟩,
   fun j _ t _ h => absurd h (ground_no_team j t), fun k t h => absurd h (ground_no_team k t)⟩

theorem test_meets_CreditAndTheChargeLogStayConsistent : CreditsCover ground ∧ OwedHeld ground ∧ LogConsistent ground := by
  refine ⟨fun l h => ?_, ⟨by decide +kernel, by decide +kernel, fun k t h => absurd h (ground_no_team k t),
    fun k t h => absurd h (ground_no_team k t)⟩, ⟨by decide +kernel, by decide +kernel, by decide +kernel⟩⟩
  have closed : ∀ l : Lane, ground.sessionClosed l = true := by decide +kernel
  simp [closed l] at h

/-! ### The commands, one step each -/

/-- What a reading of the next state gives after one command. -/
def after {α : Type} (c : Instr) (s : State) (f : State → α) : Option α := (answered (exec c s)).map f

theorem test_part_reset : answered (exec .partReset playing) = some State.reset := by decide +kernel

theorem test_lane_frame : after (.laneFrame (LaneFrame.wire ⟨1, 4, []⟩)) ground (·.owed) = some [.machineReady 0] := by
  decide +kernel

theorem test_lane_frame_bad : after (.laneFrame []) ground (·.dli.linkErrors.laneCheck) = some true := by decide +kernel

theorem test_pinfall : after (.pinfall 0 7) (withMachine readyMachine ground) (fun s => (s.machine 0).deck) = some 7 := by
  decide +kernel

theorem test_pinfall_scoring :
    after (.pinfallScoring 0 7 ⟨.ready, 1023, true⟩) (withDelivery liveDelivery playing)
      (fun s => (s.team 0).map fun t => (t.ball, t.target, t.roster.map fun b => (b.frame 1).balls.map (·.pins)))
      = some (some (2, 7, [[7]])) := by decide +kernel

theorem test_cycle_done :
    after (.cycleDone 0 5 .ok) (withMachine (movingMachine .cycling) ground)
      (fun s => ((s.machine 0).state, (s.machine 0).deck, (s.machine 0).deckValid)) = some (.ready, 1023, true) := by
  decide +kernel

theorem test_machine_fault :
    after (.machineFault 0 9 .safety) ground (fun s => (s.mrp.part, s.mrp.halt.cause)) = some (.halted, some (.safety 0)) := by
  decide +kernel

theorem test_machine_ready : after (.machineReady 0) ground (fun s => (s.machine 0).state) = some .ready := by decide +kernel

theorem test_cycle_timer_expiry :
    after (.cycleTimerExpiry 0) (withMachine (movingMachine .cycling) ground)
      (fun s => ((s.machine 0).state, (s.machine 0).fault.map (·.code), (s.machine 0).late)) =
      some (.fault, some 255, some ⟨5, none⟩) := by decide +kernel

theorem test_ball_pass : after (.ballPass 0 120) playing (·.delivery 0) = some (some liveDelivery) := by decide +kernel

theorem test_foul :
    after (.foul 0) (withDelivery liveDelivery playing) (fun s => (s.delivery 0).map (·.fouled)) = some (some true) := by
  decide +kernel

theorem test_ball_pass_return :
    after (.ballPassReturn 0) ground (fun s => ((s.pair 0).transit, (s.pair 0).timer)) = some ([⟨0, 0⟩], some 25) := by
  decide +kernel

theorem test_ball_pass_billing :
    after (.ballPassBilling 0) (timing (sessionOf .armed none) .onFirstBall .none) (fun s => (s.session 0).state)
      = some .running := by decide +kernel

theorem test_ball_arrived :
    after (.ballArrived 0) (withPair (returning 1 11) ground) (fun s => ((s.pair 0).transit, (s.pair 0).rack, (s.pair 0).lift))
      = some ([], 12, false) := by decide +kernel

theorem test_ball_taken : after (.ballTaken 0) (withPair (returning 0 3) ground) (fun s => (s.pair 0).rack) = some 2 := by
  decide +kernel

theorem test_lift_jam : after (.liftJam 0) ground (fun s => ((s.holds 0).pair, (s.holds 1).pair)) = some (true, true) := by
  decide +kernel

theorem test_overdue :
    after (.overdueTimerExpiry 0) overdueDue (fun s => ((s.pair 0).oldestOverdue, (s.pair 0).causes.overdue))
      = some (true, some false) := by decide +kernel

theorem test_correction_request :
    after (.correctionRequest 0 1 1 2) playing (·.correction 0) = some (some ⟨0, 1, 1, 2⟩) := by decide +kernel

theorem test_start_game :
    after (.startGame 0) (standing gameTariff (sessionOf .running none) readyMachine)
      (fun s => (s.team 0).map fun t => (t.state, t.game)) = some (some (.bowling, 2)) := by decide +kernel

theorem test_auto_post_granted :
    after (.autoPost 0 .fullRack) (withAuto .fullRack (withMachine readyMachine ground))
      (fun s => ((s.machine 0).state, s.lli.cycleList, s.auto 0)) = some (.cycling, [(0, 1)], none) := by decide +kernel

theorem test_hold_set_change_keeps_a_held_lane :
    after (.holdSetChange 0)
      (withAuto .fullRack (withMachine { readyMachine with holds := { HoldSet.empty with desk := true } } ground))
      (fun s => (s.machine 0).state) = some .ready := by decide +kernel

theorem test_ready_entry_posts_the_target :
    after (.readyEntry 0 7 true) playing (·.auto 0) = some (some .fullRack) := by decide +kernel

theorem test_gate_evaluation :
    after (.gateEvaluation 0) (withMachine (faultMachine false false) (timing (sessionOf .running none) .onOpen .machine))
      (fun s => (s.session 0).state) = some .suspended := by decide +kernel

theorem test_lane_cycle_exit : after (.laneCycleExit 0) (inPart .halting ground) (·.mrp.part) = some .halted := by decide +kernel

theorem test_clock_advance_charges_a_minute :
    after .clockAdvance (timing (metered 59 (some 9)) .onOpen .none)
      (fun s => ((s.session 0).segMinutes, (s.session 0).segAmount, (s.session 0).credit, (s.session 0).seconds))
      = some (2, 20, some 8, 0) := by decide +kernel

theorem test_halt_line_assert :
    after .haltLineAssert (withMachine (movingMachine .cycling) ground) (fun s => (s.mrp.part, (s.machine 0).state))
      = some (.halting, .stopping) := by decide +kernel

theorem test_desk_frame_receive :
    after (.deskFrameReceive statusFrame.wire) ground (·.dli.rx) = some [statusFrame] := by decide +kernel

theorem test_desk_lane_frame_refused :
    after (.deskLaneFrame 1 16 []) ground (fun s => s.frr.laneRefusals.at 0) = some (some ⟨1, .psNotInService⟩) := by
  decide +kernel

/-- RACK_HIGH over an event on pair 1: whether it waits after it, and what stands on both lanes' consoles. -/
def rackHighAfter (c : Instr) (r : PairRecord) (waits : Bool) : Option (Bool × List ConsoleCode × List ConsoleCode) :=
  after c (withPair r { ground with dli := { ground.dli with notices := if waits then [.ofPair .rackHigh 0] else [] } }) (fun s =>
    (decide (.ofPair .rackHigh 0 ∈ s.dli.notices), (s.lli.console.at 0).notices, (s.lli.console.at 1).notices))

/-- RACK_HIGH comes with the fall to the level and goes with the rise above it, and on one side of the level stays as it is (R138). -/
theorem test_rack_high_falls :
    rackHighAfter (.ballPassReturn 0) (returning 0 9) false = some (true, [.rackHigh], [.rackHigh]) ∧
    rackHighAfter (.rackSet 9 1 10) (returning 0 0) false = some (true, [.rackHigh], [.rackHigh]) ∧
    rackHighAfter (.ballPassReturn 0) (returning 0 10) false = some (false, [], []) ∧
    rackHighAfter (.ballTaken 0) (returning 0 11) true = some (true, [], []) := by decide +kernel

theorem test_rack_high_rises :
    rackHighAfter (.ballTaken 0) (returning 0 10) true = some (false, [], []) ∧
    rackHighAfter (.rackSet 9 1 9) (returning 0 10) true = some (false, [], []) ∧
    rackHighAfter (.transitDiscard 9 1) (returning 1 9) true = some (false, [], []) := by decide +kernel

/-- A STOP whose machine stops another cycle leaves unsent, and so does the traffic of a lane without a CN address (R16, R17). -/
theorem test_downstream_line_discards :
    after .downstreamLineFree (withMachine readyMachine stopMarked) (fun s => (s.lli.line, s.lli.stopMarks.at 0)) =
      some (none, none) ∧
    after .downstreamLineFree (unmapped (consoleWaiting [.busy])) (fun s =>
      (s.lli.line, s.lli.console.at 0, s.lli.consolePointer, s.lli.consoleHadTurn)) = some (none, ⟨false, []⟩, 0, false) := by
  decide +kernel

/-- A frame to a PS node not in SERVICE is refused at its turn, and the frame behind it is sent (R15). -/
theorem test_downstream_line_refuses :
    after .downstreamLineFree (queuedFor 1) (fun s =>
      (s.lli.line, s.lli.forwardDown, s.frr.laneRefusals.at 0, s.dli.notices)) =
      some (some ⟨3, 20, []⟩, [], some ⟨1, .psNotInService⟩, [.ofLane .forwardRefused 0]) := by decide +kernel

theorem test_downstream_line_free : after .downstreamLineFree stopMarked (·.lli.line) = some (some ⟨1, 17, [5]⟩) := by
  decide +kernel

theorem test_notice_drain :
    after .noticeDrain (withNotices ground) (fun s => (s.dli.notices, s.dli.tx.length)) = some ([.ofPair .unmatched 0], 1) := by
  decide +kernel

/-- The fields of the one response in the transmit queue, after its tag and code. -/
def response (s : State) : List Byte := (s.dli.tx.head?.map (·.payload.drop 3)).getD []

theorem test_status_payload :
    after (.status 9) ground (fun s => s.dli.tx.head?.map (·.payload.take 5)) = some (some [0, 9, 1, 0, 1]) := by decide +kernel

theorem test_param_set : after (.paramSet 9 2 255 255 255 255 255 255 0xFFFF 255) ground (·.mrp.params.slotBudget) = some 2 := by
  decide +kernel

theorem test_time_set_refused : after (.timeSet 9 86400) ground response = some [2, 1] := by decide +kernel

theorem test_commit : after (.commit 9) (inPart .config ground) (fun s => (s.mrp.part, s.lli.probeMarks.at 0)) = some (.run, true) := by
  decide +kernel

theorem test_reconfigure : after (.reconfigure 9) ground (·.mrp.part) = some .config := by decide +kernel

theorem test_lane_map_load :
    after (.laneMapLoad 9 32 1 5 0 7) State.reset (·.laneEntry 31) = some ⟨true, some 5, none, some 7⟩ := by decide +kernel

theorem test_fault_ack :
    after (.faultAck 9 1) (withMachine (faultMachine true false) ground) (fun s => (s.machine 0).state) = some .ready := by
  decide +kernel

theorem test_service_enter : after (.serviceEnter 9 1) (withMachine readyMachine ground) (fun s => (s.machine 0).state)
    = some .service := by decide +kernel

theorem test_lane_hold : after (.laneHold 9 1) ground response = some [0, 1, 1] := by decide +kernel

theorem test_inject :
    after (.inject 9 1 3 0 0) (withMachine readyMachine ground) (fun s => (s.machine 0).inFlight) =
      some (some ⟨1, .pitClear, .inject, false⟩) := by decide +kernel

theorem test_batch_add :
    after (.batchAdd 9 1 1 5) (withMachine readyMachine ground) (fun s => ((s.machine 0).inFlight.map (·.kind), s.cdp.batch)) =
      some (some .warm, []) := by decide +kernel

theorem test_team_load :
    after (.teamLoad 9 1 1 0 1 [[65]]) ground (fun s => (s.team 0).map (·.state)) = some (some (.standby .new)) := by decide +kernel

theorem test_pair_mode : after (.pairMode 9 1 2) ground response = some [3, 1] := by decide +kernel

theorem test_session_open :
    after (.sessionOpen 9 1 7 0 20) (withTariff (timeTariff .onOpen .none) ground) (fun s => ((s.session 0).state, (s.session 0).credit))
      = some (.running, some 20) := by decide +kernel

theorem test_session_close :
    after (.sessionClose 9 1) (timing (metered 30 none) .onOpen .none)
      (fun s => ((s.session 0).state, s.blu.log.map (·.charge.body))) =
      some (.closed, [.time 0 2 10 20, .close 0 1 20 true]) := by decide +kernel

theorem test_charge_settle :
    after (.chargeSettle 9 0) (logged (some ⟨8, 0, 0, .close 1 0 0 false⟩)) (fun s => (s.blu.log.map (·.seq), (s.holds 0).logfull))
      = some ([1, 2], false) := by decide +kernel

/-- A settlement that frees one place for two owed records writes lane 1's record with the next sequence number; lane 2 keeps its record and LOGFULL (R175). -/
theorem test_charge_settle_beyond :
    after (.chargeSettle 9 0) brimming (fun s =>
      (s.blu.log.length, (s.blu.log.getLast?).map (·.seq), (s.holds 0).logfull, (s.holds 1).logfull, (s.session 1).owed.isSome)) =
      some (256, some 256, false, true, true) := by decide +kernel

theorem test_charge_fetch : after (.chargeFetch 9 8) (logged none) (·.blu.fetchPos) = some 2 := by decide +kernel

/-- A STOP mark already set keeps its tag (R16). -/
theorem test_stop_mark_kept :
    after .haltLineAssert
      { withMachine (movingMachine .cycling) ground with lli := { ground.lli with stopMarks := ground.lli.stopMarks.put 0 (some 3) } }
      (fun s => s.lli.stopMarks.at 0) = some (some 3) := by decide +kernel

/-- The class of a back-up's origin is coded by its place among AUTO and BATCH (R26, R63). -/
theorem test_backup_origin : Backup.bytes ⟨.fullRack, .auto⟩ = [1, 0, 1] ∧ Backup.bytes ⟨.warm, .batch⟩ = [5, 0, 2] := by decide

theorem test_cycle_done_hands_over :
    after (.cycleDone 0 5 .aborted) (withInject ⟨0, .pitClear, true, true, false⟩ (withMachine (movingMachine .stopping) ground))
      (fun s => ((s.machine 0).state, (s.machine 0).inFlight, s.cdp.inject, s.backup 0)) =
      some (.cycling, some ⟨6, .pitClear, .inject, false⟩, none, some ⟨.fullRack, .auto⟩) := by decide +kernel

theorem test_inject_binds :
    after (.inject 9 1 3 0 1) (withMachine (movingMachine .cycling) ground)
      (fun s => ((s.machine 0).state, s.lli.stopMarks.at 0, response s)) =
      some (.stopping, some 5, [0, 1, 2, 0, 1, 1, 3, 0, 1, 1, 0]) := by decide +kernel

theorem test_team_unload_crosses :
    after (.teamUnload 9 1) (withMode .paired { withTeam bowlingTeam ground with sce := { (withTeam bowlingTeam ground).sce with
        teams := (withTeam bowlingTeam ground).sce.teams.put 1 (some (second .waitingCross)) } })
      (fun s => ((s.team 1).map fun t => (t.state, t.seated, t.frame), response s)) =
      some (some (.bowling, 0, 2), [0, 1, 1, 1, 1, 1, 2]) := by decide +kernel

theorem test_lane_reset_crosses :
    after (.laneReset 9 1) (withMode .paired { withTeam bowlingTeam ground with sce := { (withTeam bowlingTeam ground).sce with
        teams := (withTeam bowlingTeam ground).sce.teams.put 1 (some (second .waitingCross)) } })
      (fun s => ((s.team 1).map fun t => (t.state, t.seated, t.frame), (s.team 0).map fun t => (t.state, t.seated), response s)) =
      some (some (.bowling, 0, 2), some (.standby .reset, 1), [0, 1, 1, 1, 1, 2]) := by decide +kernel

theorem test_pair_mode_releases :
    after (.pairMode 9 1 1) (waiting (some (second .waitingCross)))
      (fun s => ((s.team 0).map (·.frame), (s.team 1).map (·.state), response s)) =
      some (some 2, some .bowling, [0, 1, 2, 1, 2, 1, 2]) := by decide +kernel

/-- The last ball of a game charges its bowlers (R165). -/
theorem test_game_is_charged :
    after (.pinfallScoring 0 7 ⟨.ready, 127, true⟩)
      (let t := { teamOf .bowling true [veteran [ballOf 3 127]] with frame := 10, target := 127 }
       withDelivery ⟨true, 120, 127, false⟩ (withTeam t (withSession { sessionOf .running (some 9) with reserved := 1 }
         (withTariff gameTariff (withMachine { readyMachine with deck := 127 } ground)))))
      (fun s => ((s.team 0).map (·.state), s.blu.log.map (·.charge.body), (s.session 0).credit, (s.session 0).reserved)) =
      some (some (.standby .gameOver), [.game 1 1 1 500 500], some 8, 0) := by decide +kernel

theorem test_step_front :
    answered (step { ground with pending := [.machineReady 0, .clockAdvance] }) =
      answered (exec (.machineReady 0) { ground with pending := [.clockAdvance] }) := rfl

end Sys2Proof.Tests
end

/-! The frames of both links as they arrive (R5, R12), and the three requests that load the Lane Map and the dispositions (R2, R3, R10). -/

namespace Sys2Proof.Proofs

open Sys2Proof.Machine Sys2Proof.Laws

/-! ### The frame check (R5, R12) -/

/-- Bytes pass the Lane Link check exactly when they are those of a frame of at most 28 payload bytes. -/
theorem laneFrameOfBytes_eq_some_iff (bytes : List Byte) (f : LaneFrame) :
    laneFrameOfBytes bytes = some f ↔ f.payload.length ≤ 28 ∧ bytes = f.wire := by
  constructor
  · exact laneFrameOfBytes_some bytes f
  · rintro ⟨hlen, rfl⟩
    exact laneFrameOfBytes_wire f hlen

/-- Bytes fail the Lane Link check exactly when no frame is sent as them. -/
theorem laneFrameOfBytes_eq_none_iff (bytes : List Byte) :
    laneFrameOfBytes bytes = none ↔ ∀ f : LaneFrame, f.payload.length ≤ 28 → bytes ≠ f.wire := by
  simp [Option.eq_none_iff_forall_ne_some, laneFrameOfBytes_eq_some_iff]

/-- Bytes pass the Desk Link check exactly when they are those of a frame of at most 512 payload bytes. -/
theorem deskFrameOfBytes_eq_some_iff (bytes : List Byte) (f : DeskFrame) :
    deskFrameOfBytes bytes = some f ↔ f.payload.length ≤ 512 ∧ bytes = f.wire := by
  constructor
  · exact deskFrameOfBytes_some bytes f
  · rintro ⟨hlen, rfl⟩
    exact deskFrameOfBytes_wire f hlen

/-- Bytes fail the Desk Link check exactly when no frame is sent as them. -/
theorem deskFrameOfBytes_eq_none_iff (bytes : List Byte) :
    deskFrameOfBytes bytes = none ↔ ∀ f : DeskFrame, f.payload.length ≤ 512 → bytes ≠ f.wire := by
  simp [Option.eq_none_iff_forall_ne_some, deskFrameOfBytes_eq_some_iff]

/-! ### The two arrivals -/

theorem exec_laneFrame (bytes : List Byte) (s : State) :
    exec (.laneFrame bytes) s = .next (laneFrameEffect bytes (take (.laneFrame bytes) s)) := rfl

theorem exec_deskFrameReceive (bytes : List Byte) (s : State) :
    exec (.deskFrameReceive bytes) s = .next (deskFrameReceiveEffect bytes (take (.deskFrameReceive bytes) s)) := rfl

theorem laneFrameEffect_of_none {bytes : List Byte} (h : laneFrameOfBytes bytes = none) (s : State) :
    laneFrameEffect bytes s = linkError .laneCheck s := by simp [laneFrameEffect, h]

theorem laneFrameEffect_wire (f : LaneFrame) (h : f.payload.length ≤ 28) (s : State) :
    laneFrameEffect f.wire s = classify f s := by simp [laneFrameEffect, laneFrameOfBytes_wire f h]

theorem deskFrameReceiveEffect_of_none {bytes : List Byte} (h : deskFrameOfBytes bytes = none) (s : State) :
    deskFrameReceiveEffect bytes s = linkError .deskCheck s := by simp [deskFrameReceiveEffect, h]

theorem deskFrameReceiveEffect_wire (f : DeskFrame) (h : f.payload.length ≤ 512) (s : State) :
    deskFrameReceiveEffect f.wire s = receiveDesk f s := by simp [deskFrameReceiveEffect, deskFrameOfBytes_wire f h]

/-- The receive queue takes a sixteenth frame and no seventeenth (R12): the update of the Desk Link Interface in one piece. -/
theorem receiveDesk_eq (f : DeskFrame) (s : State) :
    receiveDesk f s = { s with
      dli := if s.dli.rx.length < 16 then { s.dli with rx := s.dli.rx ++ [f] }
        else { s.dli with notices := noticesRaised (.ofPart .rxOverrun) s.dli.notices } } := by
  unfold receiveDesk Config.deskReceivePlaces
  split
  · rfl
  · rfl

/-- Settles O7: what passes the check is exactly what some frame is sent as, so each link has the two cases of its check. -/
theorem framesAreCheckedFirst : Obligations.FramesAreCheckedFirst := by
  refine ⟨fun bytes s hbad => ?_, fun f s hlen => ?_, fun bytes s hbad => ?_, fun f s hlen => ?_⟩
  · rw [exec_laneFrame, laneFrameEffect_of_none ((laneFrameOfBytes_eq_none_iff bytes).2 hbad)]
    rfl
  · rw [exec_laneFrame, laneFrameEffect_wire f hlen]
    rfl
  · rw [exec_deskFrameReceive, deskFrameReceiveEffect_of_none ((deskFrameOfBytes_eq_none_iff bytes).2 hbad)]
    rfl
  · rw [exec_deskFrameReceive, deskFrameReceiveEffect_wire f hlen, receiveDesk_eq]
    rfl

/-! ### Condition tables whose rows answer BAD_VALUE -/

/-- The rows of a table that answer BAD_VALUE, one for each fault a request's fields may have. -/
def valueRows (faults : List Bool) : List (Bool × Result) := faults.map fun fault => (fault, .badValue)

/-- The table of a request taken in CONFIG alone: BAD_STATE elsewhere, then BAD_VALUE for a faulty field. -/
def configRows (faults : List Bool) (s : State) : List (Bool × Result) := (!s.inConfig, .badState) :: valueRows faults

theorem firstRow_valueRows_of_fault {faults : List Bool} (h : true ∈ faults) :
    firstRow (valueRows faults) = some .badValue := by
  induction faults with
  | nil => simp at h
  | cons fault faults ih =>
    cases fault
    · exact ih (by simpa using h)
    · rfl

theorem firstRow_valueRows_of_sound {faults : List Bool} (h : true ∉ faults) : firstRow (valueRows faults) = none := by
  rw [firstRow_none_iff]
  intro row hrow
  obtain ⟨fault, hfault, rfl⟩ := List.mem_map.1 hrow
  cases fault
  · rfl
  · exact absurd hfault h

theorem inConfig_iff (s : State) : s.inConfig = true ↔ s.mrp.part = .config := by simp [State.inConfig, State.part]

theorem inConfig_takeHead (c : Instr) (s : State) : (takeHead c s).inConfig = s.inConfig := by
  simp [State.inConfig, State.part]

section
variable (c : Instr) (tag : BitVec 16) (code : Nat) (faults : List Bool) (effect : State → State × List Byte) {s : State}

/-- Outside CONFIG a request of CONFIG alone answers BAD_STATE. -/
theorem answer_configRows_elsewhere (hq : s.responsesQueued < 8) (hp : s.mrp.part ≠ .config) :
    answer c tag code (fun s => judge (configRows faults s) effect s) s = respond tag code .badState [] (takeHead c s) := by
  have away : s.inConfig = false := Bool.eq_false_iff.2 (mt (inConfig_iff s).1 hp)
  refine answer_refused c tag code (configRows faults) effect s .badState hq ?_
  simp [configRows, inConfig_takeHead, away]

/-- In CONFIG a request of CONFIG alone answers BAD_VALUE for a faulty field. -/
theorem answer_configRows_fault (hq : s.responsesQueued < 8) (hp : s.mrp.part = .config) (hf : true ∈ faults) :
    answer c tag code (fun s => judge (configRows faults s) effect s) s = respond tag code .badValue [] (takeHead c s) := by
  refine answer_refused c tag code (configRows faults) effect s .badValue hq ?_
  simp [configRows, inConfig_takeHead, (inConfig_iff s).2 hp, firstRow_valueRows_of_fault hf]

/-- In CONFIG a request of CONFIG alone whose fields are sound has its effect. -/
theorem answer_configRows_sound (hq : s.responsesQueued < 8) (hp : s.mrp.part = .config) (hf : true ∉ faults) :
    answer c tag code (fun s => judge (configRows faults s) effect s) s =
      respond tag code .ok (effect (takeHead c s)).2 (effect (takeHead c s)).1 := by
  refine answer_accepted c tag code (configRows faults) effect s hq ?_
  simp [configRows, inConfig_takeHead, (inConfig_iff s).2 hp, firstRow_valueRows_of_sound hf]

end

/-! ### LANE_MAP_LOAD (R2) -/

/-- What may be wrong with the fields of LANE_MAP_LOAD. -/
def laneMapFaults (lane enabled ps fl cn : Byte) : List Bool :=
  [noLane lane, notFlag enabled, addressRefused ps || addressRefused fl || addressRefused cn]

theorem exec_laneMapLoad (tag : BitVec 16) (lane enabled ps fl cn : Byte) (s : State) :
    exec (.laneMapLoad tag lane enabled ps fl cn) s =
      .next (answer (.laneMapLoad tag lane enabled ps fl cn) tag 16
        (fun s => judge (configRows (laneMapFaults lane enabled ps fl cn) s)
          (fun s => (setLaneEntry (laneAt lane) ⟨flagOf enabled, addressOf ps, addressOf fl, addressOf cn⟩ s, [])) s) s) := rfl

theorem mem_laneMapFaults (lane enabled ps fl cn : Byte) :
    true ∈ laneMapFaults lane enabled ps fl cn ↔ laneOf lane.toNat = none ∨ 1 < enabled.toNat ∨ 127 ≤ ps.toNat ∨
      127 ≤ fl.toNat ∨ 127 ≤ cn.toNat := by
  simp [laneMapFaults, noLane, notFlag, addressRefused, or_assoc]

/-- The lane entry replaced after the request has left the receive queue. -/
theorem setLaneEntry_takeHead (c : Instr) (l : Lane) (e : LaneEntry) (s : State) :
    setLaneEntry l e (takeHead c s) = { takeHead c s with frr := { s.frr with lanes := s.frr.lanes.put l e } } := by
  simp [setLaneEntry]

theorem laneMapLoad_accepted (tag : BitVec 16) (lane enabled ps fl cn : Byte) {s : State} {l : Lane}
    (hq : s.responsesQueued < 8) (hp : s.mrp.part = .config) (hl : laneOf lane.toNat = some l)
    (hf : true ∉ laneMapFaults lane enabled ps fl cn) :
    let c := Instr.laneMapLoad tag lane enabled ps fl cn
    exec c s = .next (respond tag 16 .ok [] { takeHead c s with
      frr := { s.frr with
        lanes := s.frr.lanes.put l ⟨flagOf enabled, addressOf ps, addressOf fl, addressOf cn⟩ } }) := by
  intro c
  rw [exec_laneMapLoad, answer_configRows_sound _ _ _ _ _ hq hp hf, (laneAt_of lane l hl).2, setLaneEntry_takeHead]

/-! ### PAIR_MAP_LOAD (R3) -/

/-- What may be wrong with the fields of PAIR_MAP_LOAD. -/
def pairMapFaults (pair br capacity level initial : Byte) : List Bool :=
  [noPair pair, addressRefused br, decide (capacity.toNat < 4) || decide (24 < capacity.toNat),
    decide (capacity.toNat ≤ level.toNat), decide (24 < initial.toNat)]

theorem exec_pairMapLoad (tag : BitVec 16) (pair br capacity level initial : Byte) (s : State) :
    exec (.pairMapLoad tag pair br capacity level initial) s =
      .next (answer (.pairMapLoad tag pair br capacity level initial) tag 17
        (fun s => judge (configRows (pairMapFaults pair br capacity level initial) s)
          (fun s => (pairMapLoadEffect (pairAt pair) ⟨addressOf br, capacity.toNat, level.toNat, initial.toNat⟩ s, [])) s) s) :=
  rfl

theorem mem_pairMapFaults (pair br capacity level initial : Byte) :
    true ∈ pairMapFaults pair br capacity level initial ↔ pairNumbered pair.toNat = none ∨
      ¬ (br.toNat < 127 ∧ 4 ≤ capacity.toNat ∧ capacity.toNat ≤ 24 ∧ level.toNat < capacity.toNat ∧ initial.toNat ≤ 24) := by
  simp only [pairMapFaults, List.mem_cons, List.not_mem_nil, or_false, eq_comm (a := true), noPair_iff, addressRefused,
    Bool.or_eq_true, decide_eq_true_eq]
  refine or_congr_right ?_
  omega

/-- A pair entry without a BR address marks no LIFT. -/
theorem pairMapLoadEffect_absent (c : Instr) (p : Pair) (e : PairEntry) (s : State) (h : e.br = none) :
    pairMapLoadEffect p e (takeHead c s) =
      { takeHead c s with frr := { s.frr with pairs := s.frr.pairs.put p e }, lli := s.lli } := by
  simp [pairMapLoadEffect, setPairEntry, h]

/-- A pair entry with a BR address marks the pair's LIFT. -/
theorem pairMapLoadEffect_present (c : Instr) (p : Pair) (e : PairEntry) (s : State) (h : e.br.isSome = true) :
    pairMapLoadEffect p e (takeHead c s) =
      { takeHead c s with
        frr := { s.frr with pairs := s.frr.pairs.put p e }
        lli := { s.lli with liftMarks := s.lli.liftMarks.put p true } } := by
  simp [pairMapLoadEffect, setLiftMark, setLink, setPairEntry, h]

theorem pairMapLoad_accepted (tag : BitVec 16) (pair br capacity level initial : Byte) {s : State} {p : Pair}
    (hq : s.responsesQueued < 8) (hp : s.mrp.part = .config) (hn : pairNumbered pair.toNat = some p)
    (hf : true ∉ pairMapFaults pair br capacity level initial) :
    let c := Instr.pairMapLoad tag pair br capacity level initial
    exec c s = .next (respond tag 17 .ok []
      (pairMapLoadEffect p ⟨addressOf br, capacity.toNat, level.toNat, initial.toNat⟩ (takeHead c s))) := by
  intro c
  rw [exec_pairMapLoad, answer_configRows_sound _ _ _ _ _ hq hp hf, (pairAt_of pair p hn).2]

/-! ### DISPOSITION_LOAD (R9, R10) -/

/-- What may be wrong with the fields of DISPOSITION_LOAD: the last two are an action that does not fit its kind (R9). -/
def dispositionFaults (role kind action : Byte) : List Bool :=
  let r := (roleOf role.toNat).getD .ps
  let d := (dispositionOf action.toNat).getD .drop
  [(roleOf role.toNat).isNone, decide (31 < kind.toNat), (dispositionOf action.toNat).isNone,
    actedOn r kind.toNat && !d.acts, !actedOn r kind.toNat && d.acts]

theorem exec_dispositionLoad (tag : BitVec 16) (role kind action : Byte) (s : State) :
    exec (.dispositionLoad tag role kind action) s =
      .next (answer (.dispositionLoad tag role kind action) tag 18
        (fun s => judge (valueRows (dispositionFaults role kind action))
          (fun s => (setDisposition ((roleOf role.toNat).getD .ps) (Fin.ofNat 32 kind.toNat)
            ((dispositionOf action.toNat).getD .drop) s, [])) s) s) := rfl

theorem acts_iff (d : Disposition) : d.acts = true ↔ d = .consume ∨ d = .consumeCopy := by
  cases d <;> simp [Disposition.acts]

theorem mem_dispositionFaults_of_field (role kind action : Byte)
    (h : roleOf role.toNat = none ∨ 31 < kind.toNat ∨ dispositionOf action.toNat = none) :
    true ∈ dispositionFaults role kind action := by
  rcases h with h | h | h <;> simp [dispositionFaults, h]

/-- With its three fields in range, a DISPOSITION_LOAD is at fault exactly when its action does not fit its kind (R9). -/
theorem mem_dispositionFaults_iff_unfit (role kind action : Byte) {r : Role} {d : Disposition}
    (hr : roleOf role.toNat = some r) (hd : dispositionOf action.toNat = some d) (hk : kind.toNat ≤ 31) :
    true ∈ dispositionFaults role kind action ↔
      ¬ (actedOn r kind.toNat = true ↔ d = .consume ∨ d = .consumeCopy) := by
  have fields : true ∈ dispositionFaults role kind action ↔
      (actedOn r kind.toNat = true ∧ d.acts = false) ∨ (actedOn r kind.toNat = false ∧ d.acts = true) := by
    simp [dispositionFaults, hr, hd, hk]
  rw [fields, ← acts_iff]
  cases actedOn r kind.toNat
  · simp
  · simp

theorem dispositionLoad_refused (tag : BitVec 16) (role kind action : Byte) {s : State}
    (hq : s.responsesQueued < 8) (hf : true ∈ dispositionFaults role kind action) :
    let c := Instr.dispositionLoad tag role kind action
    exec c s = .next (respond tag 18 .badValue [] (takeHead c s)) := by
  intro c
  rw [exec_dispositionLoad, answer_refused _ _ _ (fun _ => valueRows (dispositionFaults role kind action)) _ _ .badValue hq
    (firstRow_valueRows_of_fault hf)]

theorem dispositionLoad_accepted (tag : BitVec 16) (role kind action : Byte) {s : State} {r : Role} {d : Disposition}
    (hq : s.responsesQueued < 8) (hr : roleOf role.toNat = some r) (hd : dispositionOf action.toNat = some d)
    (hf : true ∉ dispositionFaults role kind action) :
    let c := Instr.dispositionLoad tag role kind action
    exec c s = .next (respond tag 18 .ok [] (setDisposition r (Fin.ofNat 32 kind.toNat) d (takeHead c s))) := by
  intro c
  rw [exec_dispositionLoad, answer_accepted _ _ _ (fun _ => valueRows (dispositionFaults role kind action)) _ _ hq
    (firstRow_valueRows_of_sound hf), hr, hd]
  rfl

/-- A role's place in the disposition table is the number that names it. -/
theorem roleOf_roleIndex (r : Role) : roleOf (roleIndex r).val = some r := by
  cases r <;> rfl

theorem roleIndex_inj (q r : Role) : roleIndex q = roleIndex r ↔ q = r := by
  refine ⟨fun h => ?_, congrArg roleIndex⟩
  have same : some q = some r := by rw [← roleOf_roleIndex q, h, roleOf_roleIndex]
  exact Option.some.inj same

/-- A disposition replaced stands at its role and kind, and every other stands as it was. -/
theorem disposition_setDisposition (r q : Role) (kind k : Fin 32) (d : Disposition) (s : State) :
    (setDisposition r kind d s).disposition q k.val = if q = r ∧ k = kind then d else s.disposition q k.val := by
  by_cases hq : q = r
  · subst hq
    simp [State.disposition, setDisposition, Table.at_put]
  · simp [State.disposition, setDisposition, roleIndex_inj, hq]

theorem disposition_congr {s t : State} (h : t.frr.dispositions = s.frr.dispositions) (q : Role) (k : Nat) :
    t.disposition q k = s.disposition q k := by
  simp only [State.disposition, h]

/-- The state an accepted DISPOSITION_LOAD leaves: answered, one disposition replaced, and all else as it stood. -/
theorem dispositionLoad_effect (c : Instr) (tag : BitVec 16) (r : Role) (kind : Fin 32) (d : Disposition) (s : State) :
    let t := respond tag 18 .ok [] (setDisposition r kind d (takeHead c s))
    Answered c tag 18 .ok [] s t ∧
    (∀ q (k : Fin 32), t.disposition q k.val = if q = r ∧ k = kind then d else s.disposition q k.val) ∧
    t = { takeHead c s with
      frr := { s.frr with dispositions := t.frr.dispositions }
      dli := { t.dli with notices := s.dli.notices, linkErrors := s.dli.linkErrors } } := by
  intro t
  refine ⟨⟨?_, ?_⟩, fun q k => ?_, ?_⟩
  · simp [t, setDisposition]
  · simp [t, setDisposition, State.part]
  · calc t.disposition q k.val
      _ = (setDisposition r kind d (takeHead c s)).disposition q k.val := disposition_congr (by simp [t]) q k
      _ = if q = r ∧ k = kind then d else (takeHead c s).disposition q k.val := disposition_setDisposition r q kind k d _
      _ = if q = r ∧ k = kind then d else s.disposition q k.val := by
          rw [disposition_congr (s := s) (by simp) q k]
  · simp [t, respond, placeDesk, setDisposition]

/-- Settles O47: each request is read against its list of faults, and without a fault its effect replaces the one entry. -/
theorem theMapsAreLoaded : Obligations.TheMapsAreLoaded := by
  refine ⟨fun tag lane enabled ps fl cn s hq => ⟨fun hp => ?_, fun hp hbad => ?_, fun l hl hp he hps hfl hcn => ?_⟩,
    fun tag pair br capacity level initial s hq => ⟨fun hp => ?_, fun hp hbad => ?_, fun p hn hp hgood => ?_⟩,
    fun tag role kind action s hq => ⟨fun hbad => ?_, fun r hr d hd hk => ⟨fun hunfit => ?_, fun hfits => ?_⟩⟩⟩
  · rw [exec_laneMapLoad, answer_configRows_elsewhere _ _ _ _ _ hq hp]
  · rw [exec_laneMapLoad, answer_configRows_fault _ _ _ _ _ hq hp ((mem_laneMapFaults ..).2 hbad)]
  · have sound : true ∉ laneMapFaults lane enabled ps fl cn := by
      simpa [mem_laneMapFaults, hl] using ⟨he, hps, hfl, hcn⟩
    exact laneMapLoad_accepted tag lane enabled ps fl cn hq hp hl sound
  · rw [exec_pairMapLoad, answer_configRows_elsewhere _ _ _ _ _ hq hp]
  · rw [exec_pairMapLoad, answer_configRows_fault _ _ _ _ _ hq hp ((mem_pairMapFaults ..).2 hbad)]
  · have sound : true ∉ pairMapFaults pair br capacity level initial := by
      simpa [mem_pairMapFaults, hn] using hgood
    refine ⟨fun hbr => ?_, fun hbr => ?_⟩
    · have absent : addressOf br = none := if_pos hbr
      rw [pairMapLoad_accepted tag pair br capacity level initial hq hp hn sound, pairMapLoadEffect_absent _ _ _ _ absent,
        absent]
    · have present : addressOf br = some br := if_neg hbr
      rw [pairMapLoad_accepted tag pair br capacity level initial hq hp hn sound,
        pairMapLoadEffect_present _ _ _ _ (by simp [present]), present]
  · exact dispositionLoad_refused tag role kind action hq (mem_dispositionFaults_of_field role kind action hbad)
  · exact dispositionLoad_refused tag role kind action hq ((mem_dispositionFaults_iff_unfit role kind action hr hd hk).2 hunfit)
  · have sound : true ∉ dispositionFaults role kind action := fun h =>
      (mem_dispositionFaults_iff_unfit role kind action hr hd hk).1 h hfits
    have named (k : Fin 32) : k.val = kind.toNat ↔ k = Fin.ofNat 32 kind.toNat := by
      simp [Fin.ext_iff, Nat.mod_eq_of_lt (show kind.toNat < 32 by omega)]
    refine ⟨_, dispositionLoad_accepted tag role kind action hq hr hd sound, ?_⟩
    simpa only [named] using dispositionLoad_effect _ tag r (Fin.ofNat 32 kind.toNat) d s

end Sys2Proof.Proofs

/-! The two requests that take a machine into SERVICE and out of it (R42, R43, R44). -/

namespace Sys2Proof.Proofs

open Sys2Proof.Machine Sys2Proof.Laws

/-! ### Condition tables that begin with the lane rows -/

theorem machine_takeHead (c : Instr) (s : State) (l : Lane) : (takeHead c s).machine l = s.machine l :=
  machine_congr (by simp) l

theorem enabled_takeHead (c : Instr) (s : State) (l : Lane) : (takeHead c s).enabled l = s.enabled l :=
  enabled_congr (by simp) l

theorem inHalt_takeHead (c : Instr) (s : State) : (takeHead c s).inHalt = s.inHalt := by
  simp [State.inHalt, State.part]

theorem laneRows_takeHead (lane : Byte) (c : Instr) (s : State) : laneRows lane (takeHead c s) = laneRows lane s := by
  simp [laneRows, inConfig_takeHead, enabled_takeHead]

section
variable {lane : Byte} {l : Lane} (more : List (Bool × Result)) {s : State}

theorem firstRow_laneRows_config (hp : s.mrp.part = .config) : firstRow (laneRows lane s ++ more) = some .badState := by
  simp [laneRows, (inConfig_iff s).2 hp]

theorem firstRow_laneRows_noLane (hp : s.mrp.part ≠ .config) (hl : laneOf lane.toNat = none) :
    firstRow (laneRows lane s ++ more) = some .badValue := by
  simp [laneRows, Bool.eq_false_iff.2 (mt (inConfig_iff s).1 hp), (noLane_iff lane).2 hl]

/-- Outside CONFIG and with a lane named, the lane rows turn away a disabled lane and leave an enabled one to the rows after them. -/
theorem firstRow_laneRows_named (hp : s.mrp.part ≠ .config) (hl : laneOf lane.toNat = some l) :
    firstRow (laneRows lane s ++ more) = if s.enabled l then firstRow more else some .badState := by
  obtain ⟨named, lane_eq⟩ := laneAt_of lane l hl
  have away : s.inConfig = false := Bool.eq_false_iff.2 (mt (inConfig_iff s).1 hp)
  cases he : s.enabled l
  · simp [laneRows, away, named, lane_eq, he]
  · simp [laneRows, away, named, lane_eq, he]

end

/-- A changed record that keeps its machine state and its hold set owes nothing (R28). -/
theorem putMachine_quiet (l : Lane) (m : LaneMachine) (s : State) (hs : m.state = (s.machine l).state)
    (hh : m.holds = (s.machine l).holds) : putMachine l m s = { s with psv := s.psv.put l m } := by
  have owes_nothing : changeEvents l (s.machine l) m = [] := by simp [changeEvents, hs, hh]
  simp [putMachine, owes_nothing, oweAll, storeMachine]

/-! ### SERVICE_ENTER (R42, R43) -/

/-- The rows of SERVICE_ENTER's table after the lane rows (R42). -/
def serviceEnterRows (l : Lane) (s : State) : List (Bool × Result) :=
  [(s.inHalt, .halted), ((s.machine l).state == .off, .badState), ((s.machine l).state == .service, .badState)]

theorem exec_serviceEnter (tag : BitVec 16) (lane : Byte) (s : State) :
    exec (.serviceEnter tag lane) s = .next (answer (.serviceEnter tag lane) tag 25
      (fun s => judge (laneRows lane s ++ serviceEnterRows (laneAt lane) s)
        (fun s =>
          let m := (serviceEnterEffect (laneAt lane) s).machine (laneAt lane)
          (serviceEnterEffect (laneAt lane) s, u8 m.state.code ++ yesNo m.serviceRequested)) s) s) := rfl

theorem serviceEnterRows_takeHead (l : Lane) (c : Instr) (s : State) :
    serviceEnterRows l (takeHead c s) = serviceEnterRows l s := by
  simp [serviceEnterRows, inHalt_takeHead, machine_takeHead]

theorem firstRow_serviceEnterRows_halt (l : Lane) {s : State} (hp : s.mrp.part = .halting ∨ s.mrp.part = .halted) :
    firstRow (serviceEnterRows l s) = some .halted := by
  have halt : s.inHalt = true := by simpa [State.inHalt, State.part] using hp
  simp [serviceEnterRows, halt]

/-- In RUN the table turns away a machine in OFF or SERVICE, and no other (R42). -/
theorem firstRow_serviceEnterRows_run (l : Lane) {s : State} (hp : s.mrp.part = .run) :
    firstRow (serviceEnterRows l s) =
      if (s.machine l).state = .off ∨ (s.machine l).state = .service then some .badState else none := by
  have no_halt : s.inHalt = false := by simp [State.inHalt, State.part, hp]
  by_cases off : (s.machine l).state = .off
  · simp [serviceEnterRows, no_halt, off]
  · simp [serviceEnterRows, no_halt, off, firstRow]

theorem serviceEnter_refused (tag : BitVec 16) (lane : Byte) {s : State} {r : Result} (hq : s.responsesQueued < 8)
    (hr : firstRow (laneRows lane s ++ serviceEnterRows (laneAt lane) s) = some r) :
    exec (.serviceEnter tag lane) s = .next (respond tag 25 r [] (takeHead (.serviceEnter tag lane) s)) := by
  rw [exec_serviceEnter, answer_refused _ _ _ (fun s => laneRows lane s ++ serviceEnterRows (laneAt lane) s) _ _ r hq
    (by rw [laneRows_takeHead, serviceEnterRows_takeHead, hr])]

theorem serviceEnter_accepted (tag : BitVec 16) (lane : Byte) {s t : State} {l : Lane} (hq : s.responsesQueued < 8)
    (hl : laneOf lane.toNat = some l) (hr : firstRow (laneRows lane s ++ serviceEnterRows l s) = none)
    (ht : serviceEnterEffect l (takeHead (.serviceEnter tag lane) s) = t) :
    exec (.serviceEnter tag lane) s =
      .next (respond tag 25 .ok (u8 (t.machine l).state.code ++ yesNo (t.machine l).serviceRequested) t) := by
  obtain ⟨_, lane_eq⟩ := laneAt_of lane l hl
  rw [exec_serviceEnter, lane_eq, answer_accepted _ _ _ (fun s => laneRows lane s ++ serviceEnterRows l s) _ _ hq
    (by rw [laneRows_takeHead, serviceEnterRows_takeHead, hr]), ht]

/-- On an enabled lane in RUN the whole table grants a machine that is neither OFF nor in SERVICE (R42). -/
theorem firstRow_serviceEnter_granted {lane : Byte} {l : Lane} {s : State} (hl : laneOf lane.toNat = some l)
    (he : s.enabled l = true) (hp : s.mrp.part = .run)
    (hm : ¬ ((s.machine l).state = .off ∨ (s.machine l).state = .service)) :
    firstRow (laneRows lane s ++ serviceEnterRows l s) = none := by
  rw [firstRow_laneRows_named _ (by simp [hp]) hl, if_pos he, firstRow_serviceEnterRows_run _ hp, if_neg hm]

/-- From READY and FAULT the machine enters SERVICE at once, SERVICE_READY raised and a MACHINE_FAULT withdrawn (R42, R43). -/
theorem serviceEnterEffect_at_once (l : Lane) (s : State)
    (hm : (s.machine l).state = .ready ∨ (s.machine l).state = .fault) :
    serviceEnterEffect l s = { s with
      psv := s.psv.put l (s.machine l).inService
      owed := s.owed ++ changeEvents l (s.machine l) (s.machine l).inService
      dli := { s.dli with
        notices := noticesRaised (.ofLane .serviceReady l)
          (if (s.machine l).state = .fault then s.dli.notices.erase (.ofLane .machineFault l) else s.dli.notices) } } := by
  rcases hm with ready | fault
  · simp only [serviceEnterEffect, ready]
    rfl
  · simp only [serviceEnterEffect, fault]
    rfl

/-- In CYCLING and STOPPING service is requested and the cycle runs on (R42). -/
theorem serviceEnterEffect_moving (l : Lane) (s : State)
    (hm : (s.machine l).state = .cycling ∨ (s.machine l).state = .stopping) :
    serviceEnterEffect l s = { s with psv := s.psv.put l { s.machine l with serviceRequested := true } } := by
  rw [← putMachine_quiet l { s.machine l with serviceRequested := true } s rfl rfl]
  rcases hm with cycling | stopping
  · simp only [serviceEnterEffect, cycling]
  · simp only [serviceEnterEffect, stopping]

/-- A machine that enters SERVICE has the gate evaluated (R28). -/
theorem gateEvaluation_mem_changeEvents_inService (l : Lane) (m : LaneMachine) (hm : m.state ≠ .service) :
    .gateEvaluation l ∈ changeEvents l m m.inService := by
  simp [changeEvents, LaneMachine.inService, MachineState.faultOrService, hm]

/-- A machine that enters SERVICE from READY has its change of READY sent (R28). -/
theorem readyChange_mem_changeEvents_inService (l : Lane) (m : LaneMachine) (hm : m.state = .ready) :
    .readyChange l ∈ changeEvents l m m.inService := by
  simp [changeEvents, LaneMachine.inService, hm]

/-- SERVICE_ENTER granted in READY or FAULT: answered, the record, the events and the notices as R43 states, and all else as it
stood. -/
theorem serviceEnter_at_once (tag : BitVec 16) (lane : Byte) {s : State} {l : Lane} (hq : s.responsesQueued < 8)
    (hl : laneOf lane.toNat = some l) (hr : firstRow (laneRows lane s ++ serviceEnterRows l s) = none)
    (hm : (s.machine l).state = .ready ∨ (s.machine l).state = .fault) :
    let c := Instr.serviceEnter tag lane
    ∃ t, exec c s = .next t ∧ Answered c tag 25 .ok [6, 0] s t ∧
      t.psv = s.psv.put l (s.machine l).inService ∧
      t.owed = s.owed ++ changeEvents l (s.machine l) (s.machine l).inService ∧
      t.dli.notices = noticesRaised (.ofLane .serviceReady l)
        (if (s.machine l).state = .fault then s.dli.notices.erase (.ofLane .machineFault l) else s.dli.notices) ∧
      t = { takeHead c s with psv := t.psv, owed := t.owed, dli := { t.dli with linkErrors := s.dli.linkErrors } } := by
  intro c
  have effect := serviceEnterEffect_at_once l (takeHead c s) (by rwa [machine_takeHead])
  simp only [machine_takeHead, takeHead_keeps] at effect
  refine ⟨_, serviceEnter_accepted tag lane hq hl hr effect, ⟨?_, ?_⟩, ?_, ?_, ?_, ?_⟩
  · simp
  · simp [State.machine, LaneMachine.inService, State.part, MachineState.code, u8, yesNo]
  · simp
  · simp
  · simp
  · simp [respond, placeDesk]

/-- SERVICE_ENTER granted in CYCLING or STOPPING. -/
theorem serviceEnter_moving (tag : BitVec 16) (lane : Byte) {s : State} {l : Lane} (hq : s.responsesQueued < 8)
    (hl : laneOf lane.toNat = some l) (hr : firstRow (laneRows lane s ++ serviceEnterRows l s) = none)
    (hm : (s.machine l).state = .cycling ∨ (s.machine l).state = .stopping) :
    let c := Instr.serviceEnter tag lane
    exec c s = .next (respond tag 25 .ok [BitVec.ofNat 8 (s.machine l).state.code, 1]
      { takeHead c s with psv := s.psv.put l { s.machine l with serviceRequested := true } }) := by
  intro c
  have effect := serviceEnterEffect_moving l (takeHead c s) (by rwa [machine_takeHead])
  simp only [machine_takeHead, takeHead_keeps] at effect
  simpa [State.machine, u8, yesNo] using serviceEnter_accepted tag lane hq hl hr effect

/-! ### SERVICE_EXIT (R44) -/

/-- The row of SERVICE_EXIT's table after the lane rows: neither in SERVICE nor with service requested (R44). -/
def serviceExitRows (l : Lane) (s : State) : List (Bool × Result) :=
  [((s.machine l).state != .service && !((s.machine l).state.moving && (s.machine l).serviceRequested), .badState)]

theorem exec_serviceExit (tag : BitVec 16) (lane : Byte) (s : State) :
    exec (.serviceExit tag lane) s = .next (answer (.serviceExit tag lane) tag 26
      (fun s => judge (laneRows lane s ++ serviceExitRows (laneAt lane) s)
        (fun s =>
          (serviceExitEffect (laneAt lane) s,
            u8 ((serviceExitEffect (laneAt lane) s).machine (laneAt lane)).state.code)) s) s) := rfl

theorem serviceExitRows_takeHead (l : Lane) (c : Instr) (s : State) :
    serviceExitRows l (takeHead c s) = serviceExitRows l s := by
  simp [serviceExitRows, machine_takeHead]

theorem moving_iff (m : MachineState) : m.moving = true ↔ m = .cycling ∨ m = .stopping := by
  simp [MachineState.moving]

/-- Service is requested of a moving machine and not yet honoured (R42). -/
abbrev ServicePending (m : LaneMachine) : Prop :=
  (m.state = .cycling ∨ m.state = .stopping) ∧ m.serviceRequested = true

theorem firstRow_serviceExitRows (l : Lane) (s : State) :
    firstRow (serviceExitRows l s) =
      if (s.machine l).state = .service ∨ ServicePending (s.machine l) then none else some .badState := by
  have row : ((s.machine l).state != .service && !((s.machine l).state.moving && (s.machine l).serviceRequested)) =
      !decide ((s.machine l).state = .service ∨ ServicePending (s.machine l)) := by
    rw [Bool.eq_iff_iff]
    simp [← moving_iff]
  by_cases h : (s.machine l).state = .service ∨ ServicePending (s.machine l)
  · simp only [serviceExitRows, row, h, decide_true, Bool.not_true, firstRow_false, firstRow_nil, if_true]
  · simp only [serviceExitRows, row, h, decide_false, Bool.not_false, firstRow_true, if_false]

theorem serviceExit_refused (tag : BitVec 16) (lane : Byte) {s : State} {r : Result} (hq : s.responsesQueued < 8)
    (hr : firstRow (laneRows lane s ++ serviceExitRows (laneAt lane) s) = some r) :
    exec (.serviceExit tag lane) s = .next (respond tag 26 r [] (takeHead (.serviceExit tag lane) s)) := by
  rw [exec_serviceExit, answer_refused _ _ _ (fun s => laneRows lane s ++ serviceExitRows (laneAt lane) s) _ _ r hq
    (by rw [laneRows_takeHead, serviceExitRows_takeHead, hr])]

theorem serviceExit_accepted (tag : BitVec 16) (lane : Byte) {s t : State} {l : Lane} (hq : s.responsesQueued < 8)
    (hl : laneOf lane.toNat = some l) (hr : firstRow (laneRows lane s ++ serviceExitRows l s) = none)
    (ht : serviceExitEffect l (takeHead (.serviceExit tag lane) s) = t) :
    exec (.serviceExit tag lane) s = .next (respond tag 26 .ok (u8 (t.machine l).state.code) t) := by
  obtain ⟨_, lane_eq⟩ := laneAt_of lane l hl
  rw [exec_serviceExit, lane_eq, answer_accepted _ _ _ (fun s => laneRows lane s ++ serviceExitRows l s) _ _ hq
    (by rw [laneRows_takeHead, serviceExitRows_takeHead, hr]), ht]

/-- From SERVICE the machine goes to OFF, a PROBE marked and SERVICE_READY withdrawn (R44). -/
theorem serviceExitEffect_in_service (l : Lane) (s : State) (hm : (s.machine l).state = .service) :
    serviceExitEffect l s = { s with
      psv := s.psv.put l { s.machine l with state := .off, deckValid := false }
      owed := s.owed ++ [.gateEvaluation l]
      lli := { s.lli with probeMarks := s.lli.probeMarks.put l true }
      dli := { s.dli with notices := s.dli.notices.erase (.ofLane .serviceReady l) } } := by
  have events : changeEvents l (s.machine l) { s.machine l with state := .off, deckValid := false } =
      [.gateEvaluation l] := by
    simp [changeEvents, hm, MachineState.faultOrService, MachineState.moving]
  rw [← events]
  simp only [serviceExitEffect, hm, beq_self_eq_true, if_true]
  rfl

/-- Outside SERVICE a service request is withdrawn, and nothing is owed (R44). -/
theorem serviceExitEffect_requested (l : Lane) (s : State) (hm : (s.machine l).state ≠ .service) :
    serviceExitEffect l s = { s with psv := s.psv.put l { s.machine l with serviceRequested := false } } := by
  rw [← putMachine_quiet l { s.machine l with serviceRequested := false } s rfl rfl]
  simp [serviceExitEffect, hm]

/-- SERVICE_EXIT granted in SERVICE. -/
theorem serviceExit_in_service (tag : BitVec 16) (lane : Byte) {s : State} {l : Lane} (hq : s.responsesQueued < 8)
    (hl : laneOf lane.toNat = some l) (hr : firstRow (laneRows lane s ++ serviceExitRows l s) = none)
    (hm : (s.machine l).state = .service) :
    let c := Instr.serviceExit tag lane
    exec c s = .next (respond tag 26 .ok [1] { takeHead c s with
      psv := s.psv.put l { s.machine l with state := .off, deckValid := false }
      owed := s.owed ++ [.gateEvaluation l]
      lli := { s.lli with probeMarks := s.lli.probeMarks.put l true }
      dli := { (takeHead c s).dli with notices := s.dli.notices.erase (.ofLane .serviceReady l) } }) := by
  intro c
  have effect := serviceExitEffect_in_service l (takeHead c s) (by rwa [machine_takeHead])
  simp only [machine_takeHead, takeHead_keeps] at effect
  simpa [State.machine, u8, MachineState.code] using serviceExit_accepted tag lane hq hl hr effect

/-- SERVICE_EXIT granted while a service request is not yet honoured. -/
theorem serviceExit_requested (tag : BitVec 16) (lane : Byte) {s : State} {l : Lane} (hq : s.responsesQueued < 8)
    (hl : laneOf lane.toNat = some l) (hr : firstRow (laneRows lane s ++ serviceExitRows l s) = none)
    (hm : (s.machine l).state ≠ .service) :
    let c := Instr.serviceExit tag lane
    exec c s = .next (respond tag 26 .ok [BitVec.ofNat 8 (s.machine l).state.code]
      { takeHead c s with psv := s.psv.put l { s.machine l with serviceRequested := false } }) := by
  intro c
  have effect := serviceExitEffect_requested l (takeHead c s) (by rwa [machine_takeHead])
  simp only [machine_takeHead, takeHead_keeps] at effect
  simpa [State.machine, u8] using serviceExit_accepted tag lane hq hl hr effect

/-- Settles O19: each request is read against its table, whose rows after the lane rows depend on the part state and the machine
alone, and then has the effect of the machine state it finds. -/
theorem serviceIsEnteredAndLeft : Obligations.ServiceIsEnteredAndLeft := by
  refine ⟨fun tag lane s hq => ⟨fun hp => ?_, fun hp hl => ?_, fun l hl hp => ⟨fun he => ?_, fun he halt => ?_,
    fun he run hm => ?_, fun he run hm => ?_, fun he run hm => ?_⟩⟩,
    fun tag lane s hq => ⟨fun hp => ?_, fun hp hl => ?_, fun l hl hp => ⟨fun hbad => ?_, fun he hm => ?_,
    fun he hm => ?_⟩⟩⟩
  · exact serviceEnter_refused tag lane hq (firstRow_laneRows_config _ hp)
  · exact serviceEnter_refused tag lane hq (firstRow_laneRows_noLane _ hp hl)
  · exact serviceEnter_refused tag lane hq (by simp [firstRow_laneRows_named _ hp hl, he])
  · refine serviceEnter_refused tag lane hq ?_
    rw [firstRow_laneRows_named _ hp hl, if_pos he, firstRow_serviceEnterRows_halt _ halt]
  · refine serviceEnter_refused tag lane hq ?_
    rw [firstRow_laneRows_named _ hp hl, if_pos he, (laneAt_of lane l hl).2, firstRow_serviceEnterRows_run _ run, if_pos hm]
  · have granted := firstRow_serviceEnter_granted hl he run (by rcases hm with hm | hm <;> simp [hm])
    obtain ⟨t, taken, answered, record, events, notices, rest⟩ := serviceEnter_at_once tag lane hq hl granted hm
    have outside : (s.machine l).state ≠ .service := by rcases hm with hm | hm <;> simp [hm]
    refine ⟨t, taken, answered, record, ?_, fun ready => ?_, notices, rest⟩
    · rw [events]
      exact List.mem_append_right _ (gateEvaluation_mem_changeEvents_inService l _ outside)
    · rw [events]
      exact List.mem_append_right _ (readyChange_mem_changeEvents_inService l _ ready)
  · exact serviceEnter_moving tag lane hq hl
      (firstRow_serviceEnter_granted hl he run (by rcases hm with hm | hm <;> simp [hm])) hm
  · exact serviceExit_refused tag lane hq (firstRow_laneRows_config _ hp)
  · exact serviceExit_refused tag lane hq (firstRow_laneRows_noLane _ hp hl)
  · refine serviceExit_refused tag lane hq ?_
    rw [firstRow_laneRows_named _ hp hl, (laneAt_of lane l hl).2, firstRow_serviceExitRows]
    rcases hbad with disabled | ⟨outside, not_pending⟩
    · simp [disabled]
    · simp [outside, not_pending]
  · have granted : firstRow (laneRows lane s ++ serviceExitRows l s) = none := by
      rw [firstRow_laneRows_named _ hp hl, if_pos he, firstRow_serviceExitRows, if_pos (.inl hm)]
    exact serviceExit_in_service tag lane hq hl granted hm
  · have granted : firstRow (laneRows lane s ++ serviceExitRows l s) = none := by
      rw [firstRow_laneRows_named _ hp hl, if_pos he, firstRow_serviceExitRows, if_pos (.inr hm)]
    exact serviceExit_requested tag lane hq hl granted (by rcases hm.1 with h | h <;> simp [h])

end Sys2Proof.Proofs

/-! The progression of a frame ball by ball, and the marks, frame scores and cumulative totals of a game (R101, R102, R104,
R105). -/

namespace Sys2Proof.Proofs

open Sys2Proof.Machine Sys2Proof.Laws

/-! ### The step of the progression (R101, R102) -/

theorem strike_iff (b : Ball) : b.strike = true ↔ b.pins = 10 ∧ b.foul = false := by simp [Ball.strike]

theorem strike_eq_false_iff (b : Ball) : b.strike = false ↔ ¬ (b.pins = 10 ∧ b.foul = false) := by
  rw [← strike_iff, Bool.not_eq_true]

theorem strike_of_foul {b : Ball} (h : b.foul = true) : b.strike = false := by simp [Ball.strike, h]

theorem leftStanding_of_foul {b : Ball} (h : b.foul = true) (before : Pins) : leftStanding b before = before := if_pos h

theorem leftStanding_of_fair {b : Ball} (h : b.foul = false) (before : Pins) : leftStanding b before = b.after := by
  simp [leftStanding, h]

theorem frameStep_strike {b : Ball} (h : b.strike = true) (n : Nat) (before : Pins) :
    frameStep n [b] before = ⟨decide (n ≠ 10), 1023⟩ := if_pos h

theorem frameStep_first {b : Ball} (h : b.strike = false) (n : Nat) (before : Pins) :
    frameStep n [b] before = ⟨false, leftStanding b before⟩ := by
  simp [frameStep, h]

theorem frameStep_second {n : Nat} (hn : n ≠ 10) (b1 b2 : Ball) (before : Pins) :
    frameStep n [b1, b2] before = ⟨true, 1023⟩ := if_neg hn

/-- In frame 10 a ball after a strike leads to a third, on a full rack when it has cleared the deck. -/
theorem frameStep_tenth_of_strike {b1 : Ball} (h : b1.strike = true) (b2 : Ball) (before : Pins) :
    frameStep 10 [b1, b2] before =
      ⟨false, if b2.foul = false ∧ b2.after = 0 then 1023 else leftStanding b2 before⟩ := by
  simp [frameStep, h, fullRack, emptyDeck]

/-- In frame 10 without a strike only a spare leads to a third ball. -/
theorem frameStep_tenth_of_no_strike {b1 : Ball} (h : b1.strike = false) (b2 : Ball) (before : Pins) :
    frameStep 10 [b1, b2] before = ⟨decide (b1.pins + b2.pins ≠ 10), 1023⟩ := by
  by_cases spare : b1.pins + b2.pins = 10 <;> simp [frameStep, h, spare, fullRack]

/-! ### Marks and frame scores (R104) -/

theorem frameMark_strike {b1 : Ball} (h : b1.strike = true) (rest : List Ball) : frameMark (b1 :: rest) = some .strike :=
  if_pos h

theorem frameMark_first {b1 : Ball} (h : b1.strike = false) : frameMark [b1] = none := by simp [frameMark, h]

theorem frameMark_spare {b1 b2 : Ball} (h : b1.strike = false) (sum : b1.pins + b2.pins = 10) (more : List Ball) :
    frameMark (b1 :: b2 :: more) = some .spare := by
  simp [frameMark, h, sum]

theorem frameMark_open {b1 b2 : Ball} (h : b1.strike = false) (sum : b1.pins + b2.pins < 10) (more : List Ball) :
    frameMark (b1 :: b2 :: more) = some .openFrame := by
  simp [frameMark, h, sum, Nat.ne_of_lt sum]

theorem frameScore_tenth (balls : List Ball) (later : List Nat) :
    frameScore 10 balls later = if tenthEnded balls then some (balls.map (·.pins)).sum else none := rfl

theorem frameScore_of_strike {n : Nat} (hn : n ≠ 10) {balls : List Ball} (mark : frameMark balls = some .strike)
    (later : List Nat) :
    frameScore n balls later = if 2 ≤ later.length then some (10 + (later.take 2).sum) else none := by
  rcases later with _ | ⟨p1, _ | ⟨p2, later⟩⟩ <;> simp [frameScore, hn, mark, Nat.add_assoc]

theorem frameScore_of_spare {n : Nat} (hn : n ≠ 10) {balls : List Ball} (mark : frameMark balls = some .spare)
    (later : List Nat) : frameScore n balls later = later.head?.map (10 + ·) := by
  cases later <;> simp [frameScore, hn, mark]

theorem frameScore_of_open {n : Nat} (hn : n ≠ 10) {balls : List Ball} (mark : frameMark balls = some .openFrame)
    (later : List Nat) : frameScore n balls later = some (pinSum balls) := by
  simp [frameScore, hn, mark]

/-- A frame without a mark has no score, frame 10 with at most one ball included. -/
theorem frameScore_of_unmarked {balls : List Ball} (mark : frameMark balls = none) (short : balls.length ≤ 1) (n : Nat)
    (later : List Nat) : frameScore n balls later = none := by
  have unended : tenthEnded balls = false := by
    match balls, short with
    | [], _ => rfl
    | [_], _ => rfl
  simp [frameScore, unended, mark]

/-! ### The records of a game computed anew (R104, R105) -/

/-- The sum of the scores, present while every score is (R105). -/
def totalOf (scores : List (Option Nat)) : Option Nat :=
  if scores.all (·.isSome) then some (scores.map (·.getD 0)).sum else none

theorem totalOf_nil : totalOf [] = some 0 := rfl

theorem totalOf_cons (x : Option Nat) (xs : List (Option Nat)) :
    totalOf (x :: xs) = Option.map₂ (· + ·) x (totalOf xs) := by
  cases x with
  | none => simp [totalOf]
  | some p => by_cases present : xs.all (·.isSome) <;> simp [totalOf, present]

theorem getElem?_scoredFrom (game : List (List Ball)) (n i : Nat) :
    (scoredFrom n game)[i]? = game[i]?.map fun balls =>
      ⟨balls, frameMark balls, frameScore (n + i) balls (((game.drop (i + 1)).flatten).map (·.pins)), none⟩ := by
  induction game generalizing n i with
  | nil => rfl
  | cons balls rest ih =>
    cases i with
    | zero => rfl
    | succ i => simp [scoredFrom, ih, Nat.add_assoc, Nat.add_comm 1 i]

theorem cumulated_cons (run : Option Nat) (f : FrameRecord) (rest : List FrameRecord) :
    cumulated run (f :: rest) =
      { f with cumulative := Option.map₂ (· + ·) run f.score } :: cumulated (Option.map₂ (· + ·) run f.score) rest := by
  cases run <;> cases h : f.score <;> simp [cumulated, h]

/-- Each cumulative total is the total carried in with the scores up to its frame. -/
theorem getElem?_cumulated (run : Option Nat) (fs : List FrameRecord) (i : Nat) :
    (cumulated run fs)[i]? = fs[i]?.map fun f =>
      { f with cumulative := Option.map₂ (· + ·) run (totalOf ((fs.take (i + 1)).map (·.score))) } := by
  induction fs generalizing run i with
  | nil => rfl
  | cons f rest ih =>
    cases i with
    | zero => simp [cumulated_cons, totalOf_cons, totalOf_nil]
    | succ i => simp [cumulated_cons, ih, totalOf_cons, Option.map₂_assoc Nat.add_assoc]

theorem foldl_put_at {n : Nat} {α : Type} (g : Fin n → α) (is : List (Fin n)) (t : Table n α) (j : Fin n) :
    (is.foldl (fun t i => t.put i (g i)) t).at j = if j ∈ is then g j else t.at j := by
  induction is generalizing t with
  | nil => rfl
  | cons i is ih =>
    by_cases later : j ∈ is
    · simp [ih, later]
    · rw [List.foldl_cons, ih, if_neg later, Table.at_put]
      rcases eq_or_ne j i with rfl | other
      · simp
      · simp [later, other]

theorem framesOfList_at (fs : List FrameRecord) (i : Fin 10) :
    (framesOfList fs).at i = (fs[i.val]?).getD (FrameRecord.ofBalls []) := by
  simp [framesOfList, foldl_put_at fun i : Fin 10 => (fs[i.val]?).getD (FrameRecord.ofBalls [])]

/-- The record of each frame of a game: its balls, the mark they decide, the score they and the balls after them decide, and the
total of the scores so far. -/
theorem rescored_at {game : List (List Ball)} (len : game.length = 10) (i : Fin 10) :
    let balls := (game[i.val]?).getD []
    (rescored game).at i =
      ⟨balls, frameMark balls, frameScore (i.val + 1) balls (((game.drop (i.val + 1)).flatten).map (·.pins)),
        totalOf (((scoredFrom 1 game).take (i.val + 1)).map (·.score))⟩ := by
  have here : i.val < game.length := by omega
  simp [rescored, framesOfList_at, getElem?_cumulated, getElem?_scoredFrom, here, Nat.add_comm 1]

theorem length_scoredFrom (n : Nat) (game : List (List Ball)) : (scoredFrom n game).length = game.length := by
  induction game generalizing n with
  | nil => rfl
  | cons balls rest ih => simp [scoredFrom, ih]

/-- The scores read off the ten records are those computed frame by frame. -/
theorem map_score_rescored {game : List (List Ball)} (len : game.length = 10) :
    ((List.finRange 10).map fun j => ((rescored game).at j).score) = (scoredFrom 1 game).map (·.score) := by
  refine List.ext_getElem (by simp [length_scoredFrom, len]) fun j hj _ => ?_
  have inside : j < game.length := by simpa [len] using hj
  have scored := getElem?_scoredFrom game 1 j
  rw [List.getElem?_eq_getElem (by rwa [length_scoredFrom]), List.getElem?_eq_getElem inside] at scored
  simp [rescored_at len, inside, Option.some.inj scored, Nat.add_comm 1]

/-- Settles O29: the step is decided by whether the first ball strikes, and each record of a game by the shape of its frame's
balls, the balls after them and the scores before it. -/
theorem theGameFollowsItsBalls : Obligations.TheGameFollowsItsBalls := by
  refine ⟨fun n b1 b2 b3 before => ?_, fun game i len => ?_⟩
  · refine ⟨fun strike hn => ?_, fun strike hn => ?_, fun miss fair => ?_, fun foul => ?_, fun hn => ?_,
      fun hn strike fair clear => ?_, fun hn strike fair left => ?_, fun hn strike foul => ?_, fun hn miss spare => ?_,
      fun hn miss short => ?_, rfl⟩
    · simp [frameStep_strike ((strike_iff b1).2 strike), hn]
    · simp [frameStep_strike ((strike_iff b1).2 strike), hn]
    · rw [frameStep_first ((strike_eq_false_iff b1).2 miss), leftStanding_of_fair fair]
    · rw [frameStep_first (strike_of_foul foul), leftStanding_of_foul foul]
    · exact frameStep_second hn b1 b2 before
    · rw [hn, frameStep_tenth_of_strike ((strike_iff b1).2 strike), if_pos ⟨fair, clear⟩]
    · rw [hn, frameStep_tenth_of_strike ((strike_iff b1).2 strike), if_neg fun h => left h.2, leftStanding_of_fair fair]
    · rw [hn, frameStep_tenth_of_strike ((strike_iff b1).2 strike), if_neg (by simp [foul]), leftStanding_of_foul foul]
    · simp [hn, frameStep_tenth_of_no_strike ((strike_eq_false_iff b1).2 miss), spare]
    · simp [hn, frameStep_tenth_of_no_strike ((strike_eq_false_iff b1).2 miss), short]
  · intro f balls later scores
    have record : f = ⟨balls, frameMark balls, frameScore (i.val + 1) balls later, totalOf (scores.take (i.val + 1))⟩ := by
      rw [show scores = _ from map_score_rescored len, ← List.map_take]
      exact rescored_at len i
    have early (h : i ≠ 9) : i.val + 1 ≠ 10 := fun e => h (Fin.ext (by simpa using e))
    rw [record]
    refine ⟨rfl, fun none_yet => ?_, fun b1 rest shape pins fair => ?_,
      fun b1 rest shape miss b2 more two => ⟨fun sum => ?_, fun sum => ?_⟩,
      fun b1 rest shape miss one => ?_, fun tenth => ?_, rfl⟩
    · simp only [none_yet]
      exact ⟨rfl, frameScore_of_unmarked rfl (by simp) _ _⟩
    · have mark : frameMark balls = some .strike := shape ▸ frameMark_strike ((strike_iff b1).2 ⟨pins, fair⟩) rest
      refine ⟨mark, fun h => (frameScore_of_strike (early h) mark later).trans ?_⟩
      rcases later with _ | ⟨p1, _ | ⟨p2, later⟩⟩ <;> simp [Nat.add_assoc]
    · have mark : frameMark balls = some .spare := by
        rw [shape, two, frameMark_spare ((strike_eq_false_iff b1).2 miss) sum]
      refine ⟨mark, fun h => (frameScore_of_spare (early h) mark later).trans ?_⟩
      cases later <;> rfl
    · have mark : frameMark balls = some .openFrame := by
        rw [shape, two, frameMark_open ((strike_eq_false_iff b1).2 miss) sum]
      refine ⟨mark, fun h last => (frameScore_of_open (early h) mark later).trans ?_⟩
      simp [pinSum, shape, two, last]
    · have mark : frameMark balls = none := by rw [shape, one, frameMark_first ((strike_eq_false_iff b1).2 miss)]
      exact ⟨mark, frameScore_of_unmarked mark (by simp [shape, one]) _ _⟩
    · rw [tenth]
      exact frameScore_tenth balls later

end Sys2Proof.Proofs

/-! AMEND_COMMIT: the limits of an amended frame, the condition table and the effect (R128, R129, R130). -/

namespace Sys2Proof.Proofs

open Sys2Proof.Machine Sys2Proof.Laws

/-! ### Correction slots emptied by a test (R120) -/

section
variable (pick : Correction → Bool)

/-- Whether a lane's correction slot holds a request that the test picks. -/
abbrev slotPicked (s : State) (l : Lane) : Bool := (s.correction l).any pick

theorem emptyPicked_eq (l : Lane) (s : State) :
    emptyPicked pick l s =
      if slotPicked pick s l then withdrawLane .correction l (setCorrection l none s) else s := by
  cases held : s.correction l with
  | none => simp only [emptyPicked, slotPicked, held, Option.any_none, Bool.false_eq_true, if_false]
  | some x => simp only [emptyPicked, emptyCorrection, slotPicked, held, Option.any_some]

theorem correction_emptyPicked (l k : Lane) (s : State) :
    (emptyPicked pick l s).correction k = if k = l ∧ slotPicked pick s k = true then none else s.correction k := by
  rw [emptyPicked_eq]
  by_cases picked : slotPicked pick s l = true
  · rw [if_pos picked]
    refine (correction_setCorrection l k none s).trans ?_
    by_cases here : k = l
    · rw [if_pos here, if_pos ⟨here, here ▸ picked⟩]
    · rw [if_neg here, if_neg fun h => here h.1]
  · have kept : ¬ (k = l ∧ slotPicked pick s k = true) := fun ⟨here, h⟩ => picked (here ▸ h)
    rw [if_neg picked, if_neg kept]

theorem notices_emptyPicked (l : Lane) {s : State} (nodup : s.dli.notices.Nodup) :
    (emptyPicked pick l s).dli.notices =
      s.dli.notices.filter fun n => !decide (slotPicked pick s l = true ∧ n = .ofLane .correction l) := by
  rw [emptyPicked_eq]
  by_cases picked : slotPicked pick s l = true
  · rw [if_pos picked, withdrawLane_dli]
    refine (nodup.erase_eq_filter _).trans (List.filter_congr fun n _ => ?_)
    simp only [picked, true_and, bne, beq_eq_decide]
  · rw [if_neg picked]
    simp [picked]

/-- The lanes visited hold what the test did not pick, the others what they held. -/
theorem correction_foldl_emptyPicked (ls : List Lane) (s : State) (k : Lane) :
    (ls.foldl (fun s l => emptyPicked pick l s) s).correction k =
      if k ∈ ls ∧ slotPicked pick s k = true then none else s.correction k := by
  induction ls generalizing s with
  | nil => simp
  | cons l ls ih =>
    rw [List.foldl_cons, ih, slotPicked, correction_emptyPicked]
    grind

/-- The notices that remain are those of no lane visited whose slot the test picked. -/
theorem notices_foldl_emptyPicked (ls : List Lane) {s : State} (nodup : s.dli.notices.Nodup) :
    (ls.foldl (fun s l => emptyPicked pick l s) s).dli.notices =
      s.dli.notices.filter fun n => !decide (∃ l ∈ ls, slotPicked pick s l = true ∧ n = .ofLane .correction l) := by
  induction ls generalizing s with
  | nil => simp
  | cons l ls ih =>
    have first := notices_emptyPicked pick l nodup
    rw [List.foldl_cons, ih (first ▸ nodup.filter _), first, List.filter_filter]
    refine List.filter_congr fun n _ => ?_
    rw [Bool.eq_iff_iff]
    simp only [slotPicked, correction_emptyPicked]
    grind

theorem correction_emptyCorrections (s : State) (l : Lane) :
    (emptyCorrections pick s).correction l = if slotPicked pick s l = true then none else s.correction l := by
  rw [emptyCorrections, forLanes, correction_foldl_emptyPicked]
  simp only [mem_allLanes, true_and]

theorem notices_emptyCorrections {s : State} (nodup : s.dli.notices.Nodup) :
    (emptyCorrections pick s).dli.notices =
      s.dli.notices.filter fun n => !decide (∃ l, slotPicked pick s l = true ∧ n = .ofLane .correction l) := by
  rw [emptyCorrections, forLanes, notices_foldl_emptyPicked pick allLanes nodup]
  simp only [mem_allLanes, true_and]

/-- Emptying correction slots changes the slots and the notices alone. -/
theorem emptyCorrections_keeps (s : State) :
    ∃ corrections notices, emptyCorrections pick s = { s with
      sce := { s.sce with corrections := corrections }
      dli := { s.dli with notices := notices } } := by
  refine forLanes_keeps
    (fun t => ∃ corrections notices, t = { s with
      sce := { s.sce with corrections := corrections }
      dli := { s.dli with notices := notices } })
    (emptyPicked pick) ?_ s ⟨_, _, rfl⟩
  rintro l t ⟨corrections, notices, rfl⟩
  rw [emptyPicked_eq]
  split
  · exact ⟨_, _, rfl⟩
  · exact ⟨_, _, rfl⟩

end

/-! ### The limits of an amended frame (R129) -/

/-- A committed ball that is a strike (R129). -/
abbrev Struck (w : WireBall) : Prop := w.pins = 10 ∧ w.foul = 0

theorem wireStrike_iff (w : WireBall) : wireStrike w = true ↔ Struck w := by simp [wireStrike, Struck]

/-- The limits of R129 for every frame, in the terms in which R129 gives them. -/
def shapeKept (frame : Byte) (before : List Ball) (ws : List WireBall) : Bool :=
  match before, ws with
  | [b1], [w1] => decide (frame ≠ 10 ∧ (Struck w1 ↔ b1.pins = 10 ∧ b1.foul = false))
  | b1 :: b2 :: more, w1 :: w2 :: rest => decide (
    (Struck w1 ↔ b1.pins = 10 ∧ b1.foul = false) ∧
    (frame ≠ 10 → more = [] ∧ rest = [] ∧ w1.pins.toNat + w2.pins.toNat ≤ 10) ∧
    (frame = 10 →
      (Struck w1 ∨ w1.pins.toNat + w2.pins.toNat = 10 ↔ (b1.pins = 10 ∧ b1.foul = false) ∨ b1.pins + b2.pins = 10) ∧
      (Struck w1 ∨ w1.pins.toNat + w2.pins.toNat ≤ 10) ∧
      ∀ w3 ∈ rest, Struck w1 → w2.pins ≠ 10 → w2.pins.toNat + w3.pins.toNat ≤ 10))
  | _, _ => false

theorem wireStrike_beq_strike_iff (w : WireBall) (b : Ball) :
    (wireStrike w == b.strike) = true ↔ (Struck w ↔ b.pins = 10 ∧ b.foul = false) := by
  rw [beq_iff_eq, Bool.eq_iff_iff, wireStrike_iff, strike_iff]

theorem thirdEarned_iff (strike : Bool) (pins1 pins2 : Nat) :
    thirdEarned strike pins1 pins2 = true ↔ strike = true ∨ pins1 + pins2 = 10 := by
  simp [thirdEarned]

/-- Ball 2 keeps its bound exactly when ball 1 is a strike or the two sum to at most 10. -/
theorem le_secondBound_iff {w1 w2 : WireBall} (low1 : w1.pins.toNat ≤ 10) (low2 : w2.pins.toNat ≤ 10) :
    w2.pins.toNat ≤ secondBound w1 ↔ Struck w1 ∨ w1.pins.toNat + w2.pins.toNat ≤ 10 := by
  rw [← wireStrike_iff]
  cases strike : wireStrike w1
  · simp only [secondBound, strike, Bool.false_eq_true, if_false, false_or]
    omega
  · simp [secondBound, strike, low2]

/-- Ball 3 is bounded by ball 2 only after a strike that ball 2 does not follow with 10. -/
theorem le_thirdBound_iff (w1 : WireBall) {w2 w3 : WireBall} (low2 : w2.pins.toNat ≤ 10) (low3 : w3.pins.toNat ≤ 10) :
    w3.pins.toNat ≤ thirdBound w1 w2 ↔ (Struck w1 → w2.pins ≠ 10 → w2.pins.toNat + w3.pins.toNat ≤ 10) := by
  rw [← wireStrike_iff]
  by_cases bounded : wireStrike w1 = true ∧ w2.pins ≠ 10
  · have bound : thirdBound w1 w2 = 10 - w2.pins.toNat := if_pos (by simpa using bounded)
    rw [bound]
    exact ⟨fun h _ _ => by omega, fun h => by have := h bounded.1 bounded.2; omega⟩
  · have bound : thirdBound w1 w2 = 10 := if_neg (by simpa using bounded)
    rw [bound]
    exact ⟨fun _ strike left => absurd ⟨strike, left⟩ bounded, fun _ => low3⟩

/-- In frames 1 to 9 only one ball and two balls are shapes of a frame. -/
theorem earlyLimits_eq_shapeKept {frame : Byte} (early : frame ≠ 10) (before : List Ball) (ws : List WireBall) :
    earlyLimits before ws = shapeKept frame before ws := by
  rw [Bool.eq_iff_iff]
  match before, ws with
  | [], _ => simp [earlyLimits, shapeKept]
  | [_], [] => simp [earlyLimits, shapeKept]
  | [b1], [w1] =>
    simp only [earlyLimits, shapeKept, wireStrike_beq_strike_iff, early, decide_eq_true_iff, ne_eq, not_false_iff, true_and]
  | [_], _ :: _ :: _ => simp [earlyLimits, shapeKept]
  | _ :: _ :: _, [] => simp [earlyLimits, shapeKept]
  | _ :: _ :: _, [_] => simp [earlyLimits, shapeKept]
  | [b1, b2], [w1, w2] =>
    simp only [earlyLimits, shapeKept, Bool.and_eq_true, wireStrike_beq_strike_iff, early, decide_eq_true_iff, ne_eq, not_false_iff,
      true_implies, true_and, false_implies, and_true]
  | [_, _], _ :: _ :: _ :: _ =>
    simp only [earlyLimits, shapeKept, early, decide_eq_true_iff, ne_eq, not_false_iff, true_implies, reduceCtorEq, false_and,
      and_false, Bool.false_eq_true]
  | _ :: _ :: _ :: _, _ :: _ :: _ =>
    simp only [earlyLimits, shapeKept, early, decide_eq_true_iff, ne_eq, not_false_iff, true_implies, reduceCtorEq, false_and,
      and_false, Bool.false_eq_true]

/-- In frame 10 a commit states two balls or more, and the later ones by what R101 and R102 leave standing. -/
theorem tenthLimits_eq_shapeKept {before : List Ball} {ws : List WireBall} (low : ∀ w ∈ ws, w.pins.toNat ≤ 10) :
    tenthLimits before ws = shapeKept 10 before ws := by
  rw [Bool.eq_iff_iff]
  match before, ws with
  | [], _ => simp [tenthLimits, shapeKept]
  | [_], [] => simp [tenthLimits, shapeKept]
  | [_], [_] => simp [tenthLimits, shapeKept]
  | [_], _ :: _ :: _ => simp [tenthLimits, shapeKept]
  | _ :: _ :: _, [] => simp [tenthLimits, shapeKept]
  | _ :: _ :: _, [_] => simp [tenthLimits, shapeKept]
  | b1 :: b2 :: more, w1 :: w2 :: rest =>
    have low2 : w2.pins.toNat ≤ 10 := low w2 (by simp)
    have third : (∀ w3 ∈ rest, w3.pins.toNat ≤ thirdBound w1 w2) ↔
        ∀ w3 ∈ rest, Struck w1 → w2.pins ≠ 10 → w2.pins.toNat + w3.pins.toNat ≤ 10 :=
      forall₂_congr fun w3 mem => le_thirdBound_iff w1 low2 (low w3 (by simp [mem]))
    have earned : (thirdEarned (wireStrike w1) w1.pins.toNat w2.pins.toNat == thirdEarned b1.strike b1.pins b2.pins) = true ↔
        (Struck w1 ∨ w1.pins.toNat + w2.pins.toNat = 10 ↔ (b1.pins = 10 ∧ b1.foul = false) ∨ b1.pins + b2.pins = 10) := by
      rw [beq_iff_eq, Bool.eq_iff_iff, thirdEarned_iff, thirdEarned_iff, wireStrike_iff, strike_iff]
    simp only [tenthLimits, shapeKept, Bool.and_eq_true, wireStrike_beq_strike_iff, earned, decide_eq_true_iff, List.all_eq_true,
      le_secondBound_iff (low w1 (by simp)) low2, third, ne_eq, not_true, false_implies, true_and, true_implies, and_assoc]

/-! ### The rows of AMEND_COMMIT that read the frame (R128) -/

/-- What a commit must state of a frame's balls (R128, R129). -/
abbrev CommitFits (frame : Byte) (before : List Ball) (count : Nat) (ws : List WireBall) : Prop :=
  count = before.length ∧ (∀ w ∈ ws, w.pins.toNat ≤ 10 ∧ (w.foul = 1 → w.pins = 0)) ∧ shapeKept frame before ws = true

theorem firstRow_commitFrameRows_none_iff (frame : Byte) (before : List Ball) (count : Nat) (ws : List WireBall) :
    firstRow (commitFrameRows frame.toNat before count ws) = none ↔ CommitFits frame before count ws := by
  have tenth_iff : frame.toNat = 10 ↔ frame = 10 := by bv_omega
  have pins : (ws.any fun w => decide (10 < w.pins.toNat) || (w.foul == 1 && w.pins != 0)) = false ↔
      ∀ w ∈ ws, w.pins.toNat ≤ 10 ∧ (w.foul = 1 → w.pins = 0) := by
    simp
  simp only [firstRow_none_iff, commitFrameRows, List.forall_mem_cons, List.not_mem_nil, false_implies, implies_true, and_true,
    bne_eq_false_iff_eq, pins]
  refine and_congr_right fun _ => and_congr_right fun sound => ?_
  by_cases tenth : frame = 10
  · subst tenth
    simp [tenthLimits_eq_shapeKept fun w mem => (sound w mem).1]
  · have early : frame.toNat ≠ 10 := mt tenth_iff.1 tenth
    simp [early, earlyLimits_eq_shapeKept tenth]

/-- A commit that does not fit its frame answers BAD_VALUE, whatever it breaks. -/
theorem firstRow_commitFrameRows_of_not {frame : Byte} {before : List Ball} {count : Nat} {ws : List WireBall}
    (unfit : ¬ CommitFits frame before count ws) :
    firstRow (commitFrameRows frame.toNat before count ws) = some .badValue := by
  obtain ⟨r, row⟩ := Option.ne_none_iff_exists'.1 (mt (firstRow_commitFrameRows_none_iff frame before count ws).1 unfit)
  have mem := firstRow_some _ _ row
  simp only [commitFrameRows, List.mem_cons, Prod.mk.injEq, List.not_mem_nil, or_false] at mem
  rw [row]
  grind

/-! ### The table of AMEND_COMMIT (R128) -/

/-- The condition table of AMEND_COMMIT (R128). -/
def commitRows (slot bowler frame count : Byte) (ws : List WireBall) (s : State) : List (Bool × Result) :=
  [(s.inConfig, .badState), (amendOutside slot bowler frame, .badValue),
    (decide (count.toNat < 1) || decide (3 < count.toNat) || ws.any (fun w => notFlag w.foul), .badValue),
    (!s.reserved (slotAt slot) bowler.toNat frame.toNat, .noReservation)] ++
  (match (s.team (slotAt slot)).bind fun t => t.frameOf bowler.toNat frame.toNat with
    | some f => commitFrameRows frame.toNat f.balls count.toNat ws
    | none => [])

theorem exec_amendCommit (tag : BitVec 16) (slot bowler frame count : Byte) (ws : List WireBall) (s : State) :
    exec (.amendCommit tag slot bowler frame count ws) s = .next (answer (.amendCommit tag slot bowler frame count ws) tag 50
      (fun s => judge (commitRows slot bowler frame count ws s)
        (fun s => match s.team (slotAt slot) with
          | some t => (amendCommitEffect (slotAt slot) t bowler.toNat frame.toNat ws s,
              commitResponse (t.amend bowler.toNat frame.toNat ws) bowler.toNat frame.toNat)
          | none => (s, [])) s) s) := rfl

theorem team_takeHead (c : Instr) (s : State) (k : Slot) : (takeHead c s).team k = s.team k := team_congr (by simp) k

theorem commitRows_takeHead (slot bowler frame count : Byte) (ws : List WireBall) (c : Instr) (s : State) :
    commitRows slot bowler frame count ws (takeHead c s) = commitRows slot bowler frame count ws s := by
  simp only [commitRows, inConfig_takeHead, State.reserved, team_takeHead]

/-- The bowler and the frame of an amendment are counted within a roster and a game (R126, R128). -/
abbrev AmendNamed (bowler frame : Byte) : Prop :=
  1 ≤ bowler.toNat ∧ bowler.toNat ≤ 6 ∧ 1 ≤ frame.toNat ∧ frame.toNat ≤ 10

/-- The ball count and the foul fields of a commit are in range (R128). -/
abbrev CommitCounted (count : Byte) (ws : List WireBall) : Prop :=
  1 ≤ count.toNat ∧ count.toNat ≤ 3 ∧ ∀ w ∈ ws, w.foul.toNat ≤ 1

theorem amendOutside_eq_false_iff (slot bowler frame : Byte) :
    amendOutside slot bowler frame = false ↔ slotOf slot.toNat ≠ none ∧ AmendNamed bowler frame := by
  simp only [amendOutside, noSlot, AmendNamed, Bool.or_eq_false_iff, decide_eq_false_iff_not, Option.isNone_eq_false_iff,
    Option.isSome_iff_ne_none, Nat.not_lt, and_assoc]

theorem commitMiscounted_eq_false_iff (count : Byte) (ws : List WireBall) :
    (decide (count.toNat < 1) || decide (3 < count.toNat) || ws.any (fun w => notFlag w.foul)) = false ↔
      CommitCounted count ws := by
  simp only [notFlag, CommitCounted, Bool.or_eq_false_iff, decide_eq_false_iff_not, List.any_eq_false, decide_eq_true_iff,
    Nat.not_lt, and_assoc]

theorem reserved_iff (s : State) (k : Slot) (bowler frame : Nat) :
    s.reserved k bowler frame = true ↔ (s.team k).bind (·.reservation) = some ⟨bowler, frame⟩ := by
  cases h : s.team k <;> simp [State.reserved, h]

section
variable {slot bowler frame count : Byte} {ws : List WireBall} {s : State}

theorem firstRow_commitRows_config (hp : s.mrp.part = .config) :
    firstRow (commitRows slot bowler frame count ws s) = some .badState := by
  simp [commitRows, (inConfig_iff s).2 hp]

theorem firstRow_commitRows_outside (hp : s.mrp.part ≠ .config)
    (bad : slotOf slot.toNat = none ∨ ¬ AmendNamed bowler frame ∨ ¬ CommitCounted count ws) :
    firstRow (commitRows slot bowler frame count ws s) = some .badValue := by
  have away : s.inConfig = false := Bool.eq_false_iff.2 (mt (inConfig_iff s).1 hp)
  cases outside : amendOutside slot bowler frame with
  | true => simp [commitRows, away, outside]
  | false =>
    obtain ⟨slot_named, named⟩ := (amendOutside_eq_false_iff slot bowler frame).1 outside
    have miscounted : ¬ CommitCounted count ws := by tauto
    rw [← commitMiscounted_eq_false_iff, Bool.not_eq_false] at miscounted
    simp only [commitRows, away, outside, miscounted, List.cons_append, firstRow_false, firstRow_true]

/-- With slot, bowler, frame and count in range the table asks for the reservation and then reads the frame. -/
theorem firstRow_commitRows_named {k : Slot} (hp : s.mrp.part ≠ .config) (hk : slotOf slot.toNat = some k)
    (named : AmendNamed bowler frame) (counted : CommitCounted count ws) :
    firstRow (commitRows slot bowler frame count ws s) =
      if (s.team k).bind (·.reservation) = some ⟨bowler.toNat, frame.toNat⟩ then
        firstRow ((((s.team k).bind fun t => t.frameOf bowler.toNat frame.toNat).map fun f =>
          commitFrameRows frame.toNat f.balls count.toNat ws).getD [])
      else some .noReservation := by
  have away : s.inConfig = false := Bool.eq_false_iff.2 (mt (inConfig_iff s).1 hp)
  have inside := (amendOutside_eq_false_iff slot bowler frame).2 ⟨by simp [hk], named⟩
  have in_range := (commitMiscounted_eq_false_iff count ws).2 counted
  simp only [commitRows, away, inside, in_range, (slotAt_of slot k hk).2, List.cons_append, List.nil_append, firstRow_false]
  by_cases held : (s.team k).bind (·.reservation) = some ⟨bowler.toNat, frame.toNat⟩
  · rw [if_pos held, (reserved_iff s k _ _).2 held, Bool.not_true, firstRow_false]
    cases (s.team k).bind fun t => t.frameOf bowler.toNat frame.toNat <;> rfl
  · rw [if_neg held, Bool.eq_false_iff.2 (mt (reserved_iff s k _ _).1 held), Bool.not_false, firstRow_true]

theorem firstRow_commitRows_unreserved {k : Slot} (hp : s.mrp.part ≠ .config) (hk : slotOf slot.toNat = some k)
    (named : AmendNamed bowler frame) (counted : CommitCounted count ws)
    (free : (s.team k).bind (·.reservation) ≠ some ⟨bowler.toNat, frame.toNat⟩) :
    firstRow (commitRows slot bowler frame count ws s) = some .noReservation := by
  rw [firstRow_commitRows_named hp hk named counted, if_neg free]

theorem firstRow_commitRows_reserved {k : Slot} {team : Team} {b : Bowler} (hp : s.mrp.part ≠ .config)
    (hk : slotOf slot.toNat = some k) (named : AmendNamed bowler frame) (counted : CommitCounted count ws)
    (ht : s.team k = some team) (hb : team.roster[bowler.toNat - 1]? = some b)
    (held : team.reservation = some ⟨bowler.toNat, frame.toNat⟩) :
    firstRow (commitRows slot bowler frame count ws s) =
      firstRow (commitFrameRows frame.toNat (b.frame frame.toNat).balls count.toNat ws) := by
  rw [firstRow_commitRows_named hp hk named counted, if_pos (by simp [ht, held])]
  simp [ht, Team.frameOf, hb]

theorem amendCommit_refused (tag : BitVec 16) {r : Result} (hq : s.responsesQueued < 8)
    (hr : firstRow (commitRows slot bowler frame count ws s) = some r) :
    let c := Instr.amendCommit tag slot bowler frame count ws
    exec c s = .next (respond tag 50 r [] (takeHead c s)) := by
  intro c
  rw [exec_amendCommit, answer_refused _ _ _ (commitRows slot bowler frame count ws) _ _ r hq (by rw [commitRows_takeHead, hr])]

theorem amendCommit_accepted (tag : BitVec 16) {k : Slot} {team : Team} (hq : s.responsesQueued < 8)
    (hk : slotOf slot.toNat = some k) (ht : s.team k = some team)
    (hr : firstRow (commitRows slot bowler frame count ws s) = none) :
    let c := Instr.amendCommit tag slot bowler frame count ws
    exec c s = .next (respond tag 50 .ok
      (commitResponse (team.amend bowler.toNat frame.toNat ws) bowler.toNat frame.toNat)
      (amendCommitEffect k team bowler.toNat frame.toNat ws (takeHead c s))) := by
  intro c
  rw [exec_amendCommit, answer_accepted _ _ _ (commitRows slot bowler frame count ws) _ _ hq (by rw [commitRows_takeHead, hr]),
    (slotAt_of slot k hk).2, team_takeHead, ht]

end

/-! ### The effect of AMEND_COMMIT (R130) -/

/-- A correction request names a team's bowler and frame. -/
abbrev CorrectionNames (k : Slot) (bowler frame : Nat) (x : Correction) : Prop :=
  x.team = k ∧ x.bowler = bowler ∧ x.frame = frame

/-- A commit leaves its bowler the frames computed anew. -/
theorem frame_amend (b : Bowler) (n game : Nat) (inProgress : Bool) (ws : List WireBall) (m : Nat) :
    (b.amend n game inProgress ws).frame m = (b.withBalls n (List.zipWith Ball.amend (b.frame n).balls ws)).frame m := by
  cases inProgress <;> rfl

theorem amend_of_bowler {t : Team} {bowler : Nat} {b : Bowler} (hb : t.roster[bowler - 1]? = some b) (n : Nat)
    (ws : List WireBall) :
    t.amend bowler n ws = { t with
      roster := t.roster.set (bowler - 1) (b.amend n t.game t.inProgress ws)
      reservation := none } := by
  simp [Team.amend, hb]

/-- The response carries the frame and the game total as the commit leaves them. -/
theorem commitResponse_amend {t : Team} {bowler : Nat} {b : Bowler} (hb : t.roster[bowler - 1]? = some b) (n : Nat)
    (ws : List WireBall) :
    let after := b.withBalls n (List.zipWith Ball.amend (b.frame n).balls ws)
    commitResponse (t.amend bowler n ws) bowler n =
      [BitVec.ofNat 8 t.game] ++ (after.frame n).bytes ++ optBytes u16 (after.frames.at 9).cumulative := by
  intro after
  obtain ⟨inside, -⟩ := List.getElem?_eq_some_iff.1 hb
  rw [amend_of_bowler hb]
  simp only [commitResponse, List.getElem?_set_self inside, Bowler.gameTotal, frame_amend, List.append_assoc]
  rfl

/-- The effect of a commit: the team amended, the slots that name the frame emptied with their notices, the display stale. -/
theorem amendCommitEffect_eq (k : Slot) (t : Team) (bowler n : Nat) (ws : List WireBall) (s : State) :
    ∃ corrections notices,
      amendCommitEffect k t bowler n ws s = { s with
        sce := { s.sce with teams := s.sce.teams.put k (some (t.amend bowler n ws)), corrections := corrections }
        dli := { s.dli with notices := notices }
        lli := { s.lli with
          console := s.lli.console.put t.seated ⟨true, (s.lli.console.at t.seated).notices⟩ } } ∧
      (∀ l, corrections.at l =
        if (s.correction l).any (fun x => decide (CorrectionNames k bowler n x)) then none else s.correction l) ∧
      (s.dli.notices.Nodup → notices = s.dli.notices.filter fun m => !decide (∃ l,
        (s.correction l).any (fun x => decide (CorrectionNames k bowler n x)) = true ∧ m = .ofLane .correction l)) := by
  have pick_eq : (fun c : Correction => c.team == k && c.bowler == bowler && c.frame == n) =
      fun x => decide (CorrectionNames k bowler n x) := by
    funext x
    simp [CorrectionNames, Bool.and_assoc, beq_eq_decide]
  let team := setTeam k (some (t.amend bowler n ws)) s
  let pick (x : Correction) := decide (CorrectionNames k bowler n x)
  have slots := correction_emptyCorrections pick team
  have pending := notices_emptyCorrections pick (s := team)
  obtain ⟨corrections, notices, emptied⟩ := emptyCorrections_keeps pick team
  have effect : amendCommitEffect k t bowler n ws s = markStale t.seated (emptyCorrections pick team) := by
    rw [amendCommitEffect, pick_eq]
  rw [emptied] at slots pending
  refine ⟨corrections, notices, ?_, slots, pending⟩
  rw [effect, emptied]
  rfl

theorem correction_takeHead (c : Instr) (s : State) (l : Lane) : (takeHead c s).correction l = s.correction l := by
  simp only [State.correction, takeHead_keeps]

/-- AMEND_COMMIT granted: answered with the frame and the game total computed anew, and its effect all that has changed. -/
theorem amendCommit_granted (tag : BitVec 16) {slot bowler frame count : Byte} {ws : List WireBall} {s : State} {k : Slot}
    {team : Team} {b : Bowler} (hq : s.responsesQueued < 8) (hk : slotOf slot.toNat = some k) (ht : s.team k = some team)
    (hb : team.roster[bowler.toNat - 1]? = some b) (hr : firstRow (commitRows slot bowler frame count ws s) = none) :
    let c := Instr.amendCommit tag slot bowler frame count ws
    let after := b.withBalls frame.toNat (List.zipWith Ball.amend (b.frame frame.toNat).balls ws)
    ∃ corrections notices,
      exec c s = .next (respond tag 50 .ok
        ([BitVec.ofNat 8 team.game] ++ (after.frame frame.toNat).bytes ++ optBytes u16 (after.frames.at 9).cumulative)
        { takeHead c s with
          sce := { s.sce with
            teams := s.sce.teams.put k (some (team.amend bowler.toNat frame.toNat ws)), corrections := corrections }
          dli := { (takeHead c s).dli with notices := notices }
          lli := { s.lli with
            console := s.lli.console.put team.seated ⟨true, (s.lli.console.at team.seated).notices⟩ } }) ∧
      (∀ l, corrections.at l =
        if (s.correction l).any (fun x => decide (CorrectionNames k bowler.toNat frame.toNat x)) then none
        else s.correction l) ∧
      (s.dli.notices.Nodup → notices = s.dli.notices.filter fun m => !decide (∃ l,
        (s.correction l).any (fun x => decide (CorrectionNames k bowler.toNat frame.toNat x)) = true ∧
          m = .ofLane .correction l)) := by
  intro c after
  obtain ⟨corrections, notices, effect, slots, pending⟩ :=
    amendCommitEffect_eq k team bowler.toNat frame.toNat ws (takeHead c s)
  simp only [takeHead_keeps] at effect
  simp only [takeHead_keeps, correction_takeHead] at slots pending
  refine ⟨corrections, notices, (amendCommit_accepted tag hq hk ht hr).trans ?_, slots, pending⟩
  rw [commitResponse_amend hb, effect]
  simp only [takeHead_keeps, c, after]

/-- Settles O39: the table is read row by row up to the reservation, the rows that read the frame are the limits of R129, and a
commit that breaks none of them has the effect of R130. -/
theorem aReservedFrameIsAmended : Obligations.AReservedFrameIsAmended := by
  intro tag slot bowler frame count balls s hq c u refused named counted
  refine ⟨fun hp => ?_, fun hp bad => ?_, fun k hk hp hn hc => ⟨fun free => ?_, fun team ht b hb held => ?_⟩⟩
  · exact amendCommit_refused tag hq (firstRow_commitRows_config hp)
  · exact amendCommit_refused tag hq (firstRow_commitRows_outside hp bad)
  · exact amendCommit_refused tag hq (firstRow_commitRows_unreserved hp hk hn hc free)
  · intro before struck shaped right rescoredBowler total settled amended
    have frame_rows := firstRow_commitRows_reserved hp hk hn hc ht hb held
    have shaped_eq : shapeKept frame before balls = shaped := rfl
    refine ⟨fun len unfit => ?_, fun ⟨count_eq, _, sound, limits⟩ => ?_⟩
    · refine amendCommit_refused tag hq (frame_rows.trans (firstRow_commitFrameRows_of_not fun ⟨count_eq, sound, limits⟩ => ?_))
      exact unfit ⟨count_eq, len, sound, shaped_eq ▸ limits⟩
    · have fits := (firstRow_commitFrameRows_none_iff frame before count.toNat balls).2 ⟨count_eq, sound, shaped_eq ▸ limits⟩
      obtain ⟨corrections, notices, granted, slots, pending⟩ := amendCommit_granted tag hq hk ht hb (frame_rows.trans fits)
      have amended_eq : team.amend bowler.toNat frame.toNat balls = amended := amend_of_bowler hb frame.toNat balls
      rw [amended_eq] at granted
      refine ⟨_, granted, ⟨rfl, ?_⟩, Table.at_put_same _ _ _, fun j hj => Table.at_put_other _ _ _ _ hj,
        ⟨slots, pending⟩, ?_⟩
      · have tx_kept : u.dli.tx = s.dli.tx := by simp only [u, takeHead_keeps]
        exact congrArg (· ++ [_]) tx_kept
      · simp [respond, placeDesk, u]

end Sys2Proof.Proofs

/-! RECONFIGURE: its condition table, and what each block clears and keeps (R187). -/

namespace Sys2Proof.Proofs

open Sys2Proof.Machine Sys2Proof.Laws

/-! ### Folds and tables -/

/-- Visits that each take some notices away take away, one after another, what any of them does. -/
theorem notices_foldl_filter {α : Type} (f : α → State → State) (gone : α → Notice → Prop) [∀ a n, Decidable (gone a n)]
    (visit : ∀ a t, t.dli.notices.Nodup → (f a t).dli.notices = t.dli.notices.filter fun n => !decide (gone a n))
    (xs : List α) {s : State} (nodup : s.dli.notices.Nodup) :
    (xs.foldl (fun s a => f a s) s).dli.notices = s.dli.notices.filter fun n => !decide (∃ a ∈ xs, gone a n) := by
  induction xs generalizing s with
  | nil => simp
  | cons x xs ih =>
    have first := visit x s nodup
    rw [List.foldl_cons, ih (first ▸ nodup.filter _), first, List.filter_filter]
    refine List.filter_congr fun n _ => ?_
    simp [Bool.and_comm]

/-- A table that holds one entry at every place is the table filled with it. -/
theorem eq_fill_of_at {n : Nat} {α : Type} {t : Table n α} {x : α} (h : ∀ i, t.at i = x) : t = Table.fill n x := by
  refine Vector.ext fun i hi => ?_
  have here := (h ⟨i, hi⟩).trans (Table.at_fill x ⟨i, hi⟩).symm
  simpa only [Table.at, Vector.get_eq_getElem] using here

/-! ### The Pinsetter Supervisor (R46) -/

/-- The notices that a lane's machine loses with its records. -/
abbrev MachineNotice (l : Lane) (n : Notice) : Prop := n = .ofLane .machineFault l ∨ n = .ofLane .serviceReady l

theorem machine_configureLane (l k : Lane) (s : State) :
    (configureLane l s).machine k = if k = l then (s.machine l).configured else s.machine k :=
  machine_putMachine l k _ s

theorem notices_configureLane (l : Lane) (s : State) (nodup : s.dli.notices.Nodup) :
    (configureLane l s).dli.notices = s.dli.notices.filter fun n => !decide (MachineNotice l n) := by
  have both : (configureLane l s).dli.notices =
      (s.dli.notices.erase (.ofLane .machineFault l)).erase (.ofLane .serviceReady l) := rfl
  rw [both, (nodup.erase _).erase_eq_filter, nodup.erase_eq_filter, List.filter_filter]
  refine List.filter_congr fun n _ => ?_
  rw [Bool.eq_iff_iff]
  simp [and_comm]

/-- RECONFIGURE at the Pinsetter Supervisor leaves every machine cleared, and changes beside the machines the owed events and the
notices alone. -/
theorem forLanes_configureLane (s : State) :
    ∃ psv owed notices,
      forLanes configureLane s = { s with psv := psv, owed := owed, dli := { s.dli with notices := notices } } ∧
      (∀ l, psv.at l = (s.machine l).configured) ∧
      (s.dli.notices.Nodup → notices = s.dli.notices.filter fun n => !decide (∃ l, MachineNotice l n)) := by
  obtain ⟨psv, owed, notices, shape⟩ := forLanes_keeps
    (fun t => ∃ psv owed notices, t = { s with psv := psv, owed := owed, dli := { s.dli with notices := notices } })
    configureLane (by rintro l t ⟨psv, owed, notices, rfl⟩; exact ⟨_, _, _, rfl⟩) s ⟨_, _, _, rfl⟩
  refine ⟨psv, owed, notices, shape, fun l => ?_, fun nodup => ?_⟩
  · obtain ⟨t, -, before, after⟩ := forLanes_visits (fun _ => True) (fun l t => t.machine l) configureLane (fun _ _ _ => trivial)
      (fun l k t _ other => by rw [machine_configureLane, if_neg other]) l s trivial
    rw [machine_configureLane, if_pos rfl, before, shape] at after
    exact after
  · have pending := notices_foldl_filter configureLane MachineNotice notices_configureLane allLanes nodup
    simp only [mem_allLanes, true_and] at pending
    rw [← pending]
    exact (congrArg (·.dli.notices) shape).symm

/-! ### The Scoring Engine (R74, R110, R120) -/

/-- A lane's slot emptied without a test is one emptied by a test that picks everything. -/
theorem emptyCorrection_eq_emptyPicked : emptyCorrection = emptyPicked fun _ => true := by
  funext l s
  cases held : s.correction l with
  | none => simp only [emptyCorrection, emptyPicked, held]
  | some x => simp only [emptyPicked, held, if_true]

/-- RECONFIGURE at the Scoring Engine keeps the teams, and withdraws the CORRECTION notice of every slot it empties. -/
theorem configureScoring_eq (s : State) :
    ∃ notices,
      configureScoring s = { s with
        sce := { State.reset.sce with teams := s.sce.teams }
        dli := { s.dli with notices := notices } } ∧
      (s.dli.notices.Nodup → ∀ n, n ∈ notices ↔
        n ∈ s.dli.notices ∧ ¬ ∃ l, s.correction l ≠ none ∧ n = .ofLane .correction l) := by
  have emptied := correction_emptyCorrections (fun _ => true) s
  have pending := notices_emptyCorrections (fun _ => true) (s := s)
  obtain ⟨corrections, notices, shape⟩ := emptyCorrections_keeps (fun _ => true) s
  have all_empty : corrections = Table.fill 32 none := eq_fill_of_at fun l => by
    have slot : (emptyCorrections (fun _ => true) s).correction l = none := by
      rw [emptied]
      cases held : s.correction l with
      | none => rw [ite_self]
      | some x => simp [slotPicked, held]
    rwa [shape] at slot
  refine ⟨notices, ?_, fun nodup n => ?_⟩
  · rw [emptyCorrections, ← emptyCorrection_eq_emptyPicked, all_empty] at shape
    rw [configureScoring, shape]
    rfl
  · have left := pending nodup
    rw [shape] at left
    rw [show notices = _ from left, List.mem_filter]
    simp [slotPicked, Option.isSome_iff_ne_none]

/-! ### The Ball Return Monitor outside RUN (R139, R140) -/

/-- A pair record with its lift HALT and its overdue timer stopped. -/
abbrev stillPair (r : PairRecord) : PairRecord := { r with lift := false, timer := none }

/-- Outside RUN an evaluation halts the lift and stops the timer, and a lift that ran has its LIFT marked. -/
theorem evalLiftTimer_of_not_run (p : Pair) {s : State} (hp : s.mrp.part ≠ .run) :
    evalLiftTimer p s = { s with
      brm := s.brm.put p (stillPair (s.pair p))
      lli := { s.lli with liftMarks := s.lli.liftMarks.put p (s.lli.liftMarks.at p || (s.pair p).lift) } } := by
  have halted : liftCommand p s = false := by simp [liftCommand, State.part, hp]
  have still : (evalLift p s).pair p = { s.pair p with lift := false } := by rw [pair_evalLift, if_pos rfl, halted]
  rw [evalLiftTimer, evalTimer, still]
  cases running : (s.pair p).lift
  · have kept : evalLift p s = s := by simp [evalLift, halted, running]
    simp [kept, putPair, PairRecord.evaluatedTimer]
  · simp [evalLift, halted, running, putPair, setLiftMark, setLink, PairRecord.evaluatedTimer]

/-- Outside RUN an evaluation of every pair stills them all, and changes beside the pairs the LIFT marks alone. -/
theorem forPairs_evalLiftTimer_of_not_run {s : State} (hp : s.mrp.part ≠ .run) :
    ∃ brm marks,
      forPairs evalLiftTimer s = { s with brm := brm, lli := { s.lli with liftMarks := marks } } ∧
      (∀ p, brm.at p = stillPair (s.pair p)) ∧ (∀ p, marks.at p = (s.lli.liftMarks.at p || (s.pair p).lift)) := by
  obtain ⟨brm, marks, shape⟩ := forPairs_keeps
    (fun t => ∃ brm marks, t = { s with brm := brm, lli := { s.lli with liftMarks := marks } }) evalLiftTimer
    (by rintro p t ⟨brm, marks, rfl⟩; exact ⟨_, _, evalLiftTimer_of_not_run p hp⟩) s ⟨_, _, rfl⟩
  have visited (p : Pair) : (brm.at p, marks.at p) = (stillPair (s.pair p), (s.lli.liftMarks.at p || (s.pair p).lift)) := by
    obtain ⟨t, away, before, after⟩ := forPairs_visits (fun t => t.mrp.part ≠ .run) (fun p t => (t.pair p, t.lli.liftMarks.at p))
      evalLiftTimer (fun p t ht => by rw [evalLiftTimer_of_not_run p ht]; exact ht)
      (fun p q t ht other => by rw [evalLiftTimer_of_not_run p ht]; simp [State.pair, other]) p s hp
    obtain ⟨pair_eq, mark_eq⟩ := Prod.mk.inj before
    rw [evalLiftTimer_of_not_run p away, shape, pair_eq, mark_eq] at after
    simpa [State.pair] using after
  exact ⟨brm, marks, shape, fun p => congrArg Prod.fst (visited p), fun p => congrArg Prod.snd (visited p)⟩

/-! ### The effect of RECONFIGURE (R187) -/

/-- The first half of the effect: the part in CONFIG, every machine cleared, and the Cycle Dispatcher as after a part reset. -/
theorem configureMachines_eq (s : State) :
    ∃ psv owed notices,
      configureDispatcher (forLanes configureLane (setPart .config s)) = { s with
        psv := psv
        owed := owed
        cdp := State.reset.cdp
        dli := { s.dli with notices := notices }
        mrp := { s.mrp with part := .config } } ∧
      (∀ l, psv.at l = (s.machine l).configured) ∧
      (s.dli.notices.Nodup → notices.Nodup ∧
        ∀ n, n ∈ notices ↔ n ∈ s.dli.notices ∧ n ≠ .ofPart .batchLow ∧ ¬ ∃ l, MachineNotice l n) := by
  obtain ⟨psv, owed, supervised, machines, cleared, left⟩ := forLanes_configureLane (setPart .config s)
  refine ⟨psv, owed, supervised.erase (.ofPart .batchLow), by rw [machines]; rfl, cleared, fun nodup => ?_⟩
  have supervised_eq := left nodup
  have distinct : supervised.Nodup := supervised_eq ▸ nodup.filter _
  refine ⟨distinct.erase _, fun n => ?_⟩
  rw [distinct.mem_erase_iff, supervised_eq]
  simp only [List.mem_filter, setPart_keeps]
  grind

/-- The second half, with the part out of RUN: scoring emptied but for its teams, every pair stilled, the downstream marks and
console traffic cleared, and PART_STATE raised. -/
theorem configureBlocks_eq {s : State} (hp : s.mrp.part ≠ .run) :
    ∃ brm marks notices,
      raisePart .partState (configureLink (forPairs evalLiftTimer (configureScoring s))) = { s with
        sce := { State.reset.sce with teams := s.sce.teams }
        brm := brm
        lli := { s.lli with
          stopMarks := State.reset.lli.stopMarks
          cycleList := []
          liftMarks := marks
          probeMarks := State.reset.lli.probeMarks
          console := State.reset.lli.console }
        dli := { s.dli with notices := noticesRaised (.ofPart .partState) notices } } ∧
      (∀ p, brm.at p = stillPair (s.pair p)) ∧ (∀ p, marks.at p = (s.lli.liftMarks.at p || (s.pair p).lift)) ∧
      (s.dli.notices.Nodup → ∀ n, n ∈ notices ↔
        n ∈ s.dli.notices ∧ ¬ ∃ l, s.correction l ≠ none ∧ n = .ofLane .correction l) := by
  obtain ⟨notices, scoring, left⟩ := configureScoring_eq s
  have away : (configureScoring s).mrp.part ≠ .run := by rw [scoring]; exact hp
  obtain ⟨brm, marks, pairs, still, marked⟩ := forPairs_evalLiftTimer_of_not_run away
  rw [scoring] at still marked
  refine ⟨brm, marks, notices, ?_, still, marked, left⟩
  rw [pairs, scoring]
  rfl

/-- The notices that RECONFIGURE withdraws. -/
abbrev ReconfigureWithdraws (s : State) (n : Notice) : Prop :=
  n = .ofPart .batchLow ∨
    ∃ l, n = .ofLane .machineFault l ∨ n = .ofLane .serviceReady l ∨ (n = .ofLane .correction l ∧ s.correction l ≠ none)

/-- RECONFIGURE's effect block by block. -/
theorem reconfigureEffect_eq (s : State) :
    ∃ psv owed brm marks notices,
      reconfigureEffect s = { s with
        psv := psv
        owed := owed
        cdp := State.reset.cdp
        sce := { State.reset.sce with teams := s.sce.teams }
        brm := brm
        lli := { s.lli with
          stopMarks := State.reset.lli.stopMarks
          cycleList := []
          liftMarks := marks
          probeMarks := State.reset.lli.probeMarks
          console := State.reset.lli.console }
        dli := { s.dli with notices := noticesRaised (.ofPart .partState) notices }
        mrp := { s.mrp with part := .config } } ∧
      (∀ l, psv.at l = (s.machine l).configured) ∧ (∀ p, brm.at p = stillPair (s.pair p)) ∧
      (∀ p, marks.at p = (s.lli.liftMarks.at p || (s.pair p).lift)) ∧
      (s.dli.notices.Nodup → ∀ n, n ∈ notices ↔ n ∈ s.dli.notices ∧ ¬ ReconfigureWithdraws s n) := by
  obtain ⟨psv, owed, supervised, machines, cleared, supervisedLeft⟩ := configureMachines_eq s
  have in_config : (configureDispatcher (forLanes configureLane (setPart .config s))).mrp.part ≠ .run := by
    rw [machines]
    exact PartState.noConfusion
  obtain ⟨brm, marks, notices, blocks, still, marked, left⟩ := configureBlocks_eq in_config
  rw [machines] at still marked left
  refine ⟨psv, owed, brm, marks, notices, ?_, cleared, still, marked, fun nodup n => ?_⟩
  · rw [reconfigureEffect, blocks, machines]
  · obtain ⟨distinct, kept⟩ := supervisedLeft nodup
    have corrections_kept : n ∈ notices ↔ n ∈ supervised ∧ ¬ ∃ l, s.correction l ≠ none ∧ n = .ofLane .correction l :=
      left distinct n
    rw [corrections_kept, kept]
    grind

/-! ### RECONFIGURE (R187) -/

/-- The rows of RECONFIGURE's table (R187). -/
def reconfigureRows (s : State) : List (Bool × Result) :=
  [(s.inConfig, .badState), (s.inHalt, .halted), (allLanes.any fun l => !s.sessionClosed l, .inUse),
    (allSlots.any fun k => (s.team k).isSome, .inUse), (decide (0 < s.slotsInUse), .inUse)]

theorem exec_reconfigure (tag : BitVec 16) (s : State) :
    exec (.reconfigure tag) s = .next (answer (.reconfigure tag) tag 7
      (fun s => judge (reconfigureRows s) (fun s => (reconfigureEffect s, u8 (reconfigureEffect s).part.code)) s) s) := rfl

theorem pair_takeHead (c : Instr) (s : State) (p : Pair) : (takeHead c s).pair p = s.pair p := pair_congr (by simp) p

theorem reconfigureRows_takeHead (c : Instr) (s : State) : reconfigureRows (takeHead c s) = reconfigureRows s := by
  have closed (l : Lane) : (takeHead c s).sessionClosed l = s.sessionClosed l := by
    simp only [State.sessionClosed, State.session, takeHead_keeps]
  have slots : (takeHead c s).slotsInUse = s.slotsInUse := slotsInUse_congr (by simp)
  simp only [reconfigureRows, inConfig_takeHead, inHalt_takeHead, closed, team_takeHead, slots]

/-- No session is open, and no lane's cycle runs. -/
abbrev PartCalm (s : State) : Prop :=
  ∀ l, (s.session l).state = .closed ∧ (s.machine l).state ≠ .cycling ∧ (s.machine l).state ≠ .stopping

theorem slotsInUse_eq_zero_iff (s : State) :
    s.slotsInUse = 0 ↔ ∀ l, (s.machine l).state ≠ .cycling ∧ (s.machine l).state ≠ .stopping := by
  simp [State.slotsInUse, List.countP_eq_zero, moving_iff]

theorem firstRow_reconfigureRows_config {s : State} (hp : s.mrp.part = .config) :
    firstRow (reconfigureRows s) = some .badState := by
  simp [reconfigureRows, (inConfig_iff s).2 hp]

theorem firstRow_reconfigureRows_halt {s : State} (hp : s.mrp.part = .halting ∨ s.mrp.part = .halted) :
    firstRow (reconfigureRows s) = some .halted := by
  have no_config : s.inConfig = false := Bool.eq_false_iff.2 fun h => by rw [inConfig_iff] at h; simp [h] at hp
  have halts : s.inHalt = true := by simp [State.inHalt, State.part, hp]
  simp [reconfigureRows, no_config, halts]

/-- In RUN only the rows that answer IN_USE are left. -/
theorem firstRow_reconfigureRows_run {s : State} (hp : s.mrp.part = .run) :
    firstRow (reconfigureRows s) = if PartCalm s ∧ ∀ k, s.team k = none then none else some .inUse := by
  have no_config : s.inConfig = false := by simp [State.inConfig, State.part, hp]
  have no_halt : s.inHalt = false := by simp [State.inHalt, State.part, hp]
  have sessions : (allLanes.any fun l => !s.sessionClosed l) = !decide (∀ l, (s.session l).state = .closed) := by
    rw [Bool.eq_iff_iff]
    simp [State.sessionClosed]
  have teams : (allSlots.any fun k => (s.team k).isSome) = !decide (∀ k, s.team k = none) := by
    rw [Bool.eq_iff_iff]
    simp [Option.isSome_iff_ne_none]
  have moving : decide (0 < s.slotsInUse) =
      !decide (∀ l, (s.machine l).state ≠ .cycling ∧ (s.machine l).state ≠ .stopping) := by
    rw [Bool.eq_iff_iff]
    simp [← slotsInUse_eq_zero_iff, Nat.pos_iff_ne_zero]
  simp only [reconfigureRows, no_config, no_halt, sessions, teams, moving, firstRow, PartCalm, forall_and]
  grind

theorem reconfigure_refused (tag : BitVec 16) {s : State} {r : Result} (hq : s.responsesQueued < 8)
    (hr : firstRow (reconfigureRows s) = some r) :
    exec (.reconfigure tag) s = .next (respond tag 7 r [] (takeHead (.reconfigure tag) s)) := by
  rw [exec_reconfigure, answer_refused _ _ _ reconfigureRows _ _ r hq (by rw [reconfigureRows_takeHead, hr])]

theorem reconfigure_accepted (tag : BitVec 16) {s : State} (hq : s.responsesQueued < 8)
    (hr : firstRow (reconfigureRows s) = none) :
    let t := reconfigureEffect (takeHead (.reconfigure tag) s)
    exec (.reconfigure tag) s = .next (respond tag 7 .ok (u8 t.part.code) t) := by
  rw [exec_reconfigure, answer_accepted _ _ _ reconfigureRows _ _ hq (by rw [reconfigureRows_takeHead, hr])]

/-- Settles O50: the table is read row by row, and in RUN with nothing in use each block has the part of the effect that its rules
give it. -/
theorem thePartIsReconfigured : Obligations.ThePartIsReconfigured := by
  intro tag s hq c u refused calm
  refine ⟨fun hp => ?_, fun hp => ?_, fun hp in_use => ?_, fun hp still_lanes no_team => ?_⟩
  · exact reconfigure_refused tag hq (firstRow_reconfigureRows_config hp)
  · exact reconfigure_refused tag hq (firstRow_reconfigureRows_halt hp)
  · exact reconfigure_refused tag hq (by rw [firstRow_reconfigureRows_run hp, if_neg in_use])
  · have accepted := reconfigure_accepted tag hq (by rw [firstRow_reconfigureRows_run hp, if_pos ⟨still_lanes, no_team⟩])
    obtain ⟨psv, owed, brm, marks, notices, effect, machines, pairs, marked, left⟩ := reconfigureEffect_eq u
    simp only [u, takeHead_keeps, machine_takeHead, pair_takeHead, correction_takeHead, ReconfigureWithdraws]
      at effect machines pairs marked left
    rw [effect] at accepted
    refine ⟨_, accepted, ⟨rfl, rfl⟩, rfl, machines, rfl, rfl, pairs, rfl, marked, ?_, fun nodup n other => ?_, ?_⟩
    · exact (mem_noticesRaised ..).2 (.inl rfl)
    · exact (mem_noticesRaised ..).trans ((or_iff_right other).trans (left nodup n))
    · simp [respond, placeDesk, u, c]

end Sys2Proof.Proofs
